-- ==== Sys2Proof/Word.lean ====
section
/-! DEFINITION. The word and byte types of the block (00_scope.md R5: REGW = XLEN = 32) and their plainest arithmetic (R6). -/

namespace Sys2Proof

/-- A register word: `REGW` = 32 bits (00_scope.md R5, 20_memory.md R74). -/
abbrev Word := BitVec 32

/-- A byte of host buffer memory (20_memory.md R70b). -/
abbrev Byte := BitVec 8

/-- The word with exactly bit `i` set: `1 << i` of 00_scope.md R6. -/
def bitWord (i : Nat) : Word := 1#32 <<< i

/-- The low `n` bits set: `ones(n)` of 00_scope.md R6, zero-extended. -/
def onesWord (n : Nat) : Word := BitVec.ofNat 32 (2 ^ n - 1)

/-- `w` with bit `i` made equal to `b`. -/
def setBit (w : Word) (i : Nat) (b : Bool) : Word :=
  if b then w ||| bitWord i else w &&& ~~~(bitWord i)

/-- `w` where the mask `m` is 1, `d` where it is 0. -/
def maskMerge (m w d : Word) : Word := (w &&& m) ||| (d &&& ~~~m)

end Sys2Proof
end

