-- ==== Sys2Proof/Syntax.lean ====
section
/-! DEFINITION. The instructions of the block (30_encoding.md R100: register accesses, command words, operations), one
constructor of `Instr` per row of spec/opcode_table.json, and the statements (`Request`) a host context holds of them. -/

namespace Sys2Proof

/-- The five register windows (20_memory.md R71). -/
inductive Window where
  | gpio | timer | pwm | i2c | spi
  deriving DecidableEq, Repr

/-- The two control registers that take command words (30_encoding.md R100 `CMD`). -/
inductive Port where
  | spi | i2c
  deriving DecidableEq, Repr

/-- The PWM channels, index 0 and 1 (45_timer_pwm.md R345). -/
inductive Chan where
  | c0 | c1
  deriving DecidableEq, Repr

/-- The memory-mapped registers (20_memory.md R71). -/
inductive Reg where
  | gpioDir | gpioOut | gpioIn | gpioIntEn | gpioIntPend | gpioIntClr
  | mtimeLo | mtimeHi | mtimecmpLo | mtimecmpHi
  | pwmCtrl (c : Chan) | pwmPeriod (c : Chan) | pwmDuty (c : Chan) | pwmCounter (c : Chan)
  | i2cCtrl | i2cStatus | i2cData | i2cPrescale
  | spiCtrl | spiStatus | spiTxdata | spiRxdata | spiConfig
  deriving DecidableEq, Repr

/-- The widths of an SPI unit: 8, 16 or 32 bits (00_scope.md section 7, "Unit"). -/
inductive SpiWidth where
  | w8 | w16 | w32
  deriving DecidableEq, Repr

/-- The format of a statement's bytes (30_encoding.md R100). The window of a register access and the port of a command
word stand beside the bits, as in the table, whose key is "within a window" (R101); notes/assumptions/2.md. -/
inductive Format where
  | mmio (w : Window)
  | cmd (p : Port)
  | op
  deriving DecidableEq, Repr

/-- One statement a host context may hold (30_encoding.md R126, 40_register_access.md R145): an instruction as bytes; a
bus access by address and width (R74, R101); a poll of one of the 32 bits of a register (R142) or a read-modify-write (R143)
of one register. -/
inductive Request where
  | stmt (f : Format) (bytes : List Byte)
  | bus (addr : Word) (bits : Nat) (write : Bool) (data : Word)
  | poll (r : Reg) (bit : Fin 32) (want : Bool)
  | rmw (r : Reg) (clearMask setBits : Word)
  deriving DecidableEq, Repr

/-- The instructions, one constructor per row of spec/opcode_table.json, in the table's order. An absent buffer (`null`,
20_memory.md R84) is `none`. -/
inductive Instr where
  /-- `RD_GPIO.DIR`: 41_gpio.md R160. -/
  | rdGpioDir
  /-- `WR_GPIO.DIR`: 41_gpio.md R160. -/
  | wrGpioDir (v : Word)
  /-- `RD_GPIO.OUT`: 41_gpio.md R161. -/
  | rdGpioOut
  /-- `WR_GPIO.OUT`: 41_gpio.md R161. -/
  | wrGpioOut (v : Word)
  /-- `RD_GPIO.IN`: 41_gpio.md R162. -/
  | rdGpioIn
  /-- `RD_GPIO.INT_EN`: 41_gpio.md R163. -/
  | rdGpioIntEn
  /-- `WR_GPIO.INT_EN`: 41_gpio.md R163. -/
  | wrGpioIntEn (v : Word)
  /-- `RD_GPIO.INT_PEND`: 41_gpio.md R164. -/
  | rdGpioIntPend
  /-- `RD_GPIO.INT_CLR`: 41_gpio.md R165. -/
  | rdGpioIntClr
  /-- `WR_GPIO.INT_CLR`: 41_gpio.md R165. -/
  | wrGpioIntClr (v : Word)
  /-- `RD_TIMER.MTIME_LO`: 45_timer_pwm.md R340. -/
  | rdTimerMtimeLo
  /-- `WR_TIMER.MTIME_LO`: 45_timer_pwm.md R341. -/
  | wrTimerMtimeLo (v : Word)
  /-- `RD_TIMER.MTIME_HI`: 45_timer_pwm.md R340. -/
  | rdTimerMtimeHi
  /-- `WR_TIMER.MTIME_HI`: 45_timer_pwm.md R341. -/
  | wrTimerMtimeHi (v : Word)
  /-- `RD_TIMER.MTIMECMP_LO`: 45_timer_pwm.md R342. -/
  | rdTimerMtimecmpLo
  /-- `WR_TIMER.MTIMECMP_LO`: 45_timer_pwm.md R342. -/
  | wrTimerMtimecmpLo (v : Word)
  /-- `RD_TIMER.MTIMECMP_HI`: 45_timer_pwm.md R342. -/
  | rdTimerMtimecmpHi
  /-- `WR_TIMER.MTIMECMP_HI`: 45_timer_pwm.md R342. -/
  | wrTimerMtimecmpHi (v : Word)
  /-- `RD_PWM_0_.CTRL`: 45_timer_pwm.md R346. -/
  | rdPwm0Ctrl
  /-- `WR_PWM_0_.CTRL`: 45_timer_pwm.md R346. -/
  | wrPwm0Ctrl (v : Word)
  /-- `RD_PWM_0_.PERIOD`: 45_timer_pwm.md R347. -/
  | rdPwm0Period
  /-- `WR_PWM_0_.PERIOD`: 45_timer_pwm.md R347. -/
  | wrPwm0Period (v : Word)
  /-- `RD_PWM_0_.DUTY`: 45_timer_pwm.md R348. -/
  | rdPwm0Duty
  /-- `WR_PWM_0_.DUTY`: 45_timer_pwm.md R348. -/
  | wrPwm0Duty (v : Word)
  /-- `RD_PWM_0_.COUNTER`: 45_timer_pwm.md R349. -/
  | rdPwm0Counter
  /-- `RD_PWM_1_.CTRL`: 45_timer_pwm.md R346. -/
  | rdPwm1Ctrl
  /-- `WR_PWM_1_.CTRL`: 45_timer_pwm.md R346. -/
  | wrPwm1Ctrl (v : Word)
  /-- `RD_PWM_1_.PERIOD`: 45_timer_pwm.md R347. -/
  | rdPwm1Period
  /-- `WR_PWM_1_.PERIOD`: 45_timer_pwm.md R347. -/
  | wrPwm1Period (v : Word)
  /-- `RD_PWM_1_.DUTY`: 45_timer_pwm.md R348. -/
  | rdPwm1Duty
  /-- `WR_PWM_1_.DUTY`: 45_timer_pwm.md R348. -/
  | wrPwm1Duty (v : Word)
  /-- `RD_PWM_1_.COUNTER`: 45_timer_pwm.md R349. -/
  | rdPwm1Counter
  /-- `RD_I2C.CTRL`: 44_i2c.md R293. -/
  | rdI2cCtrl
  /-- `WR_I2C.CTRL`: 44_i2c.md R281. -/
  | wrI2cCtrl (v : Word)
  /-- `RD_I2C.STATUS`: 44_i2c.md R288. -/
  | rdI2cStatus
  /-- `RD_I2C.DATA`: 44_i2c.md R280. -/
  | rdI2cData
  /-- `WR_I2C.DATA`: 44_i2c.md R280. -/
  | wrI2cData (v : Word)
  /-- `RD_I2C.PRESCALE`: 44_i2c.md R289. -/
  | rdI2cPrescale
  /-- `WR_I2C.PRESCALE`: 44_i2c.md R289. -/
  | wrI2cPrescale (v : Word)
  /-- `RD_SPI.CTRL`: 43_spi.md R232. -/
  | rdSpiCtrl
  /-- `WR_SPI.CTRL`: 43_spi.md R231. -/
  | wrSpiCtrl (v : Word)
  /-- `RD_SPI.STATUS`: 43_spi.md R233. -/
  | rdSpiStatus
  /-- `RD_SPI.TXDATA`: 43_spi.md R230. -/
  | rdSpiTxdata
  /-- `WR_SPI.TXDATA`: 43_spi.md R230. -/
  | wrSpiTxdata (v : Word)
  /-- `RD_SPI.RXDATA`: 43_spi.md R234. -/
  | rdSpiRxdata
  /-- `RD_SPI.CONFIG`: 43_spi.md R235. -/
  | rdSpiConfig
  /-- `WR_SPI.CONFIG`: 43_spi.md R235. -/
  | wrSpiConfig (v : Word)
  /-- `SPI.START8`: 43_spi.md R241. -/
  | spiStart8
  /-- `SPI.START16`: 43_spi.md R242. -/
  | spiStart16
  /-- `SPI.START32`: 43_spi.md R243. -/
  | spiStart32
  /-- `I2C.START`: 44_i2c.md R282. -/
  | i2cStart
  /-- `I2C.RESTART`: 44_i2c.md R283. -/
  | i2cRestart
  /-- `I2C.WRITE`: 44_i2c.md R284. -/
  | i2cWrite
  /-- `I2C.READ_ACK`: 44_i2c.md R285. -/
  | i2cReadAck
  /-- `I2C.READ_NACK`: 44_i2c.md R286. -/
  | i2cReadNack
  /-- `I2C.STOP`: 44_i2c.md R287. -/
  | i2cStop
  /-- `GPIO.SET_DIR`: 41_gpio.md R171. -/
  | gpioSetDir (pin : Word) (dir : Word)
  /-- `GPIO.GET_DIR`: 41_gpio.md R172. -/
  | gpioGetDir (pin : Word)
  /-- `GPIO.SET_DIR_MASK`: 41_gpio.md R173. -/
  | gpioSetDirMask (mask : Word)
  /-- `GPIO.GET_DIR_MASK`: 41_gpio.md R174. -/
  | gpioGetDirMask
  /-- `GPIO.SET_PIN`: 41_gpio.md R175. -/
  | gpioSetPin (pin : Word)
  /-- `GPIO.CLEAR_PIN`: 41_gpio.md R176. -/
  | gpioClearPin (pin : Word)
  /-- `GPIO.TOGGLE_PIN`: 41_gpio.md R177. -/
  | gpioTogglePin (pin : Word)
  /-- `GPIO.WRITE_PIN`: 41_gpio.md R178. -/
  | gpioWritePin (pin : Word) (level : Word)
  /-- `GPIO.WRITE`: 41_gpio.md R179. -/
  | gpioWrite (mask : Word)
  /-- `GPIO.READ_PIN`: 41_gpio.md R183. -/
  | gpioReadPin (pin : Word)
  /-- `GPIO.READ`: 41_gpio.md R184. -/
  | gpioRead
  /-- `GPIO.INT_ENABLE`: 41_gpio.md R185. -/
  | gpioIntEnable (pin : Word)
  /-- `GPIO.INT_DISABLE`: 41_gpio.md R186. -/
  | gpioIntDisable (pin : Word)
  /-- `GPIO.INT_PENDING`: 41_gpio.md R187. -/
  | gpioIntPending
  /-- `GPIO.INT_CLEAR`: 41_gpio.md R188. -/
  | gpioIntClear (pin : Word)
  /-- `GPIO.SET_ALL`: 41_gpio.md R180. -/
  | gpioSetAll
  /-- `GPIO.CLEAR_ALL`: 41_gpio.md R181. -/
  | gpioClearAll
  /-- `GPIO.TOGGLE_ALL`: 41_gpio.md R182. -/
  | gpioToggleAll
  /-- `IRQ.INIT`: 42_irq_dispatcher.md R200. -/
  | irqInit (entry : Word)
  /-- `IRQ.REGISTER`: 42_irq_dispatcher.md R201. -/
  | irqRegister (n : Word) (handler : Word)
  /-- `IRQ.DISPATCH`: 42_irq_dispatcher.md R202. -/
  | irqDispatch (cause : Word)
  /-- `IRQ.GLOBAL_ENABLE`: 42_irq_dispatcher.md R204. -/
  | irqGlobalEnable
  /-- `IRQ.GLOBAL_DISABLE`: 42_irq_dispatcher.md R205. -/
  | irqGlobalDisable
  /-- `IRQ.ENABLE_TIMER`: 42_irq_dispatcher.md R206. -/
  | irqEnableTimer
  /-- `IRQ.ENABLE_EXTERNAL`: 42_irq_dispatcher.md R207. -/
  | irqEnableExternal
  /-- `IRQ.DISABLE_TIMER`: 42_irq_dispatcher.md R208. -/
  | irqDisableTimer
  /-- `IRQ.DISABLE_EXTERNAL`: 42_irq_dispatcher.md R209. -/
  | irqDisableExternal
  /-- `SPI.XFER8`: 43_spi.md R245. -/
  | spiXfer8 (tx : Word)
  /-- `SPI.XFER16`: 43_spi.md R246. -/
  | spiXfer16 (tx : Word)
  /-- `SPI.XFER32`: 43_spi.md R247. -/
  | spiXfer32 (tx : Word)
  /-- `SPI.XFERN8`: 43_spi.md R248. -/
  | spiXfern8 (txbuf : Option Word) (rxbuf : Option Word) (count : Word)
  /-- `SPI.XFERN16`: 43_spi.md R249. -/
  | spiXfern16 (txbuf : Option Word) (rxbuf : Option Word) (count : Word)
  /-- `SPI.XFERN32`: 43_spi.md R250. -/
  | spiXfern32 (txbuf : Option Word) (rxbuf : Option Word) (count : Word)
  /-- `SPI.BURST`: 43_spi.md R251. -/
  | spiBurst (buf : Word) (len : Word)
  /-- `SPI.SET_DIV`: 43_spi.md R252. -/
  | spiSetDiv (div : Word)
  /-- `SPI.SET_MODE`: 43_spi.md R253. -/
  | spiSetMode (mode : Word)
  /-- `I2C.WRITE_N`: 44_i2c.md R310. -/
  | i2cWriteN (addr7 : Word) (buf : Word) (n : Word)
  /-- `I2C.READ_N`: 44_i2c.md R311. -/
  | i2cReadN (addr7 : Word) (buf : Word) (n : Word) (nackLast : Word)
  /-- `I2C.RTWB`: 44_i2c.md R312. -/
  | i2cRtwb (addr7 : Word)
  /-- `I2C.RTWB_RS`: 44_i2c.md R313. -/
  | i2cRtwbRs (addr7 : Word)
  /-- `I2C.SET_PRESCALE`: 44_i2c.md R314. -/
  | i2cSetPrescale (div : Word)
  /-- `PWM.INIT`: 45_timer_pwm.md R350. -/
  | pwmInit (ch : Word)
  /-- `PWM.SET_PERIOD`: 45_timer_pwm.md R351. -/
  | pwmSetPeriod (ch : Word) (period : Word)
  /-- `PWM.SET_DUTY`: 45_timer_pwm.md R352. -/
  | pwmSetDuty (ch : Word) (duty : Word)
  /-- `PWM.ENABLE`: 45_timer_pwm.md R353. -/
  | pwmEnable (ch : Word)
  /-- `PWM.DISABLE`: 45_timer_pwm.md R354. -/
  | pwmDisable (ch : Word)
  /-- `PWM.START`: 45_timer_pwm.md R355. -/
  | pwmStart (ch : Word) (period : Word) (duty : Word)
  /-- `PWM.READ_COUNTER`: 45_timer_pwm.md R356. -/
  | pwmReadCounter (ch : Word)
  deriving DecidableEq, Repr

end Sys2Proof
end

