-- ==== Sys2Proof/Config.lean ====
section
/-! DEFINITION. What the source fixes as a number, the parameters of 00_scope.md R5, and the free values: constants with no
body, of which nothing can be proved. -/

namespace Sys2Proof

/-! ### Constants the spec gives -/

/-- `OK` = 0 (00_scope.md R5, 30_encoding.md R115). -/
def Config.ok : Word := 0#32
/-- `ERROR` = -1 (00_scope.md R5, 30_encoding.md R115). -/
def Config.error : Word := 0xFFFFFFFF#32
/-- `IRQ_TIMER` = 7 (00_scope.md R5). -/
def Config.irqTimer : Nat := 7
/-- `IRQ_EXTERNAL` = 11 (00_scope.md R5). -/
def Config.irqExternal : Nat := 11
/-- `IRQ_MAX` = 16, exclusive (90_conflicts.md C1). -/
def Config.irqMax : Nat := 16
/-- `PWM_MAXVAL` = 0xFFFF (45_timer_pwm.md R357). -/
def Config.pwmMaxval : Nat := 0xFFFF
/-- The largest 7-bit I2C address (30_encoding.md R119). -/
def Config.addr7Max : Nat := 0x7F
/-- The host's addresses have `XLEN` = 32 bits (00_scope.md R5; notes/assumptions/10.md). -/
def Config.addressSpace : Nat := 2 ^ 32
/-- `mstatus.MIE` is bit 3 (10_state.md R44). -/
def Config.mieBit : Nat := 3
/-- `mstatus.MPIE` is bit 7 (10_state.md R44). -/
def Config.mpieBit : Nat := 7

/-! ### Free values -/

/-- `draw` (00_scope.md R7): the `k`-th value that no rule fixes (notes/assumptions/5.md). -/
opaque Config.draw : Nat → Word
/-- The reset value of a 32-bit register the spec gives none for (10_state.md R56; notes/assumptions/7.md), by register. -/
opaque Config.resetWord : Nat → Word
/-- The reset value of a 64-bit register the spec gives none for (10_state.md R56; notes/assumptions/7.md). -/
opaque Config.resetTimer : Nat → BitVec 64
/-- The reset value of a flag the spec gives none for (10_state.md R56; notes/assumptions/7.md). -/
opaque Config.resetFlag : Nat → Bool
/-- `PIN_MAX`, OPEN in 0..31 (00_scope.md R5, D4). -/
opaque Config.pinMax : Fin 32
/-- `GPIO_PEND_GATED`, OPEN (00_scope.md R5, D9). -/
opaque Config.pendGated : Bool
/-- `SPI_BURST_DIV_W2`, OPEN, a value of the 8-bit divider field (00_scope.md R5, D20). -/
opaque Config.burstDivW2 : Fin 256
/-- How far `SPI_BURST_DIV_W4` stands after `SPI_BURST_DIV_W2`, less one: the two OPEN values differ (00_scope.md R5). -/
opaque Config.burstDivGap : Fin 255
/-- The handlers' bodies: a parameter of the model (42_irq_dispatcher.md R203; notes/assumptions/23.md). -/
opaque Config.handlers : List (Word × List Request)

/-- The five base addresses, OPEN (00_scope.md R5, 20_memory.md R72). -/
structure Bases where
  gpio : Word
  timer : Word
  pwm : Word
  i2c : Word
  spi : Word
  deriving DecidableEq, Repr, Inhabited

/-- The register windows as (first address, size), sizes from 20_memory.md R71. -/
def Bases.windows (b : Bases) : List (Nat × Nat) :=
  [(b.gpio.toNat, 0x1C), (b.timer.toNat, 0x10), (b.pwm.toNat, 0x20), (b.i2c.toNat, 0x10), (b.spi.toNat, 0x14)]

/-- The constraint of 00_scope.md R5: 4-byte aligned, the windows pairwise disjoint; and each window lies inside the host's
address space (notes/assumptions/6.md). -/
abbrev Bases.Valid (b : Bases) : Prop :=
  (∀ w ∈ b.windows, w.1 % 4 = 0 ∧ w.1 + w.2 ≤ Config.addressSpace) ∧
  b.windows.Pairwise fun v w => v.1 + v.2 ≤ w.1 ∨ w.1 + w.2 ≤ v.1

/-- Any five base addresses. -/
opaque Config.baseCandidate : Bases

/-- The base addresses: any five that meet the constraint (where the free candidate does not, one layout that does;
notes/assumptions/6.md). -/
def Config.bases : Bases :=
  if Config.baseCandidate.Valid then Config.baseCandidate
  else { gpio := 0x10000000#32, timer := 0x10010000#32, pwm := 0x10020000#32, i2c := 0x10030000#32, spi := 0x10040000#32 }

/-- The parameters of 00_scope.md R5, with the handlers' bodies of 42_irq_dispatcher.md R203. They are arguments of the
step relation (10_state.md R20): State carries them and no step changes them (notes/assumptions/6.md). -/
structure Params where
  bases : Bases
  pinMax : Nat
  pendGated : Bool
  dirOutIs1 : Bool
  loopback : Bool
  spiStart8 : Word
  spiStart16 : Word
  spiStart32 : Word
  spiBusyBit : Nat
  spiDoneBit : Nat
  spiDivLsb : Nat
  spiDivW : Nat
  spiModeLsb : Nat
  spiModeW : Nat
  burstDivW2 : Nat
  burstDivW4 : Nat
  burstFinalWait : Bool
  /-- Used by no rule at unit granularity (30_encoding.md R118). -/
  spiMsbFirst : Bool
  i2cStart : Word
  i2cStop : Word
  i2cReadAck : Word
  i2cReadNack : Word
  i2cRestart : Word
  i2cWrite : Word
  i2cBusyBit : Nat
  i2cAckBit : Nat
  i2cArbLostBit : Nat
  i2cDoneBit : Nat
  i2cErrorBit : Nat
  ackIs1 : Bool
  abortWaits : Bool
  errNack : Word
  errArbLost : Word
  errBus : Word
  pwmEnBit : Nat
  handlers : List (Word × List Request)
  deriving DecidableEq, Repr

/-- The constraints column of 00_scope.md R5. -/
structure Params.Valid (p : Params) : Prop where
  bases : p.bases.Valid
  pinMax : p.pinMax ≤ 31
  spiWords : [0#32, p.spiStart8, p.spiStart16, p.spiStart32].Nodup
  spiBits : [p.spiBusyBit, p.spiDoneBit].Nodup
  spiBitsFit : ∀ b ∈ [p.spiBusyBit, p.spiDoneBit], b < 32
  divHolds31 : 31 < 2 ^ p.spiDivW
  divFits : p.spiDivLsb + p.spiDivW ≤ 32
  modeFits : p.spiModeLsb + p.spiModeW ≤ 32
  fieldsApart : p.spiDivLsb + p.spiDivW ≤ p.spiModeLsb ∨ p.spiModeLsb + p.spiModeW ≤ p.spiDivLsb
  burstDivs : p.burstDivW2 ≠ p.burstDivW4
  i2cWords : [p.i2cStart, p.i2cStop, p.i2cReadAck, p.i2cReadNack, p.i2cRestart, p.i2cWrite].Nodup
  i2cBits : [p.i2cBusyBit, p.i2cAckBit, p.i2cArbLostBit, p.i2cDoneBit, p.i2cErrorBit].Nodup
  i2cBitsFit : ∀ b ∈ [p.i2cBusyBit, p.i2cAckBit, p.i2cArbLostBit, p.i2cDoneBit, p.i2cErrorBit], b < 32
  errCodes : [p.errNack, p.errArbLost, p.errBus].Nodup
  errNegative : ∀ e ∈ [p.errNack, p.errArbLost, p.errBus], e.msb = true
  pwmEnBit : p.pwmEnBit < 32

/-- The value column of 00_scope.md R5: the defaults the spec decides, and the OPEN parameters free. -/
def Config.params : Params where
  bases := Config.bases
  pinMax := Config.pinMax.val
  pendGated := Config.pendGated
  dirOutIs1 := true
  loopback := true
  spiStart8 := 0x1#32
  spiStart16 := 0x3#32
  spiStart32 := 0x5#32
  spiBusyBit := 0
  spiDoneBit := 1
  spiDivLsb := 0
  spiDivW := 8
  spiModeLsb := 8
  spiModeW := 2
  burstDivW2 := Config.burstDivW2.val
  burstDivW4 := (Config.burstDivW2.val + 1 + Config.burstDivGap.val) % 256
  burstFinalWait := false
  spiMsbFirst := true
  i2cStart := 0x01#32
  i2cStop := 0x02#32
  i2cReadAck := 0x0C#32
  i2cReadNack := 0x04#32
  i2cRestart := 0x10#32
  i2cWrite := 0x00#32
  i2cBusyBit := 0
  i2cAckBit := 1
  i2cArbLostBit := 2
  i2cDoneBit := 3
  i2cErrorBit := 4
  ackIs1 := true
  abortWaits := false
  errNack := 0xFFFFFFFE#32
  errArbLost := 0xFFFFFFFD#32
  errBus := 0xFFFFFFFF#32
  pwmEnBit := 0
  handlers := Config.handlers

/-- The word that starts a unit of width `w` (30_encoding.md R103). -/
def Params.spiStart (p : Params) : SpiWidth → Word
  | .w8 => p.spiStart8
  | .w16 => p.spiStart16
  | .w32 => p.spiStart32

end Sys2Proof
end

