-- ==== Sys2Proof/WellFormed.lean ====
section
/-! DEFINITION. Which instructions are well formed: those whose operands are the 32-bit operand values of 30_encoding.md R122.
What an operation itself makes of a value (pins, channels, I2C addresses, values wider than the operand's rule states) is in its
meaning. -/

namespace Sys2Proof

/-- A present buffer has a nonzero address: the operand value 0 stands for `null` (notes/assumptions/12.md). -/
def bufferOperandOk (b : Option Word) : Bool := b != some 0#32

/-- Every operand has an operand value: the two buffers of the multi-unit transfers are the only ones with a term (an absent
buffer apart, a buffer at address 0) that has none. -/
def Instr.wellFormed : Instr → Bool
  | .rdGpioDir => true
  | .wrGpioDir _ => true
  | .rdGpioOut => true
  | .wrGpioOut _ => true
  | .rdGpioIn => true
  | .rdGpioIntEn => true
  | .wrGpioIntEn _ => true
  | .rdGpioIntPend => true
  | .rdGpioIntClr => true
  | .wrGpioIntClr _ => true
  | .rdTimerMtimeLo => true
  | .wrTimerMtimeLo _ => true
  | .rdTimerMtimeHi => true
  | .wrTimerMtimeHi _ => true
  | .rdTimerMtimecmpLo => true
  | .wrTimerMtimecmpLo _ => true
  | .rdTimerMtimecmpHi => true
  | .wrTimerMtimecmpHi _ => true
  | .rdPwm0Ctrl => true
  | .wrPwm0Ctrl _ => true
  | .rdPwm0Period => true
  | .wrPwm0Period _ => true
  | .rdPwm0Duty => true
  | .wrPwm0Duty _ => true
  | .rdPwm0Counter => true
  | .rdPwm1Ctrl => true
  | .wrPwm1Ctrl _ => true
  | .rdPwm1Period => true
  | .wrPwm1Period _ => true
  | .rdPwm1Duty => true
  | .wrPwm1Duty _ => true
  | .rdPwm1Counter => true
  | .rdI2cCtrl => true
  | .wrI2cCtrl _ => true
  | .rdI2cStatus => true
  | .rdI2cData => true
  | .wrI2cData _ => true
  | .rdI2cPrescale => true
  | .wrI2cPrescale _ => true
  | .rdSpiCtrl => true
  | .wrSpiCtrl _ => true
  | .rdSpiStatus => true
  | .rdSpiTxdata => true
  | .wrSpiTxdata _ => true
  | .rdSpiRxdata => true
  | .rdSpiConfig => true
  | .wrSpiConfig _ => true
  | .spiStart8 => true
  | .spiStart16 => true
  | .spiStart32 => true
  | .i2cStart => true
  | .i2cRestart => true
  | .i2cWrite => true
  | .i2cReadAck => true
  | .i2cReadNack => true
  | .i2cStop => true
  | .gpioSetDir _ _ => true
  | .gpioGetDir _ => true
  | .gpioSetDirMask _ => true
  | .gpioGetDirMask => true
  | .gpioSetPin _ => true
  | .gpioClearPin _ => true
  | .gpioTogglePin _ => true
  | .gpioWritePin _ _ => true
  | .gpioWrite _ => true
  | .gpioReadPin _ => true
  | .gpioRead => true
  | .gpioIntEnable _ => true
  | .gpioIntDisable _ => true
  | .gpioIntPending => true
  | .gpioIntClear _ => true
  | .gpioSetAll => true
  | .gpioClearAll => true
  | .gpioToggleAll => true
  | .irqInit _ => true
  | .irqRegister _ _ => true
  | .irqDispatch _ => true
  | .irqGlobalEnable => true
  | .irqGlobalDisable => true
  | .irqEnableTimer => true
  | .irqEnableExternal => true
  | .irqDisableTimer => true
  | .irqDisableExternal => true
  | .spiXfer8 _ => true
  | .spiXfer16 _ => true
  | .spiXfer32 _ => true
  | .spiXfern8 txbuf rxbuf _ => bufferOperandOk txbuf && bufferOperandOk rxbuf
  | .spiXfern16 txbuf rxbuf _ => bufferOperandOk txbuf && bufferOperandOk rxbuf
  | .spiXfern32 txbuf rxbuf _ => bufferOperandOk txbuf && bufferOperandOk rxbuf
  | .spiBurst _ _ => true
  | .spiSetDiv _ => true
  | .spiSetMode _ => true
  | .i2cWriteN _ _ _ => true
  | .i2cReadN _ _ _ _ => true
  | .i2cRtwb _ => true
  | .i2cRtwbRs _ => true
  | .i2cSetPrescale _ => true
  | .pwmInit _ => true
  | .pwmSetPeriod _ _ => true
  | .pwmSetDuty _ _ => true
  | .pwmEnable _ => true
  | .pwmDisable _ => true
  | .pwmStart _ _ _ => true
  | .pwmReadCounter _ => true

end Sys2Proof
end

