-- ==== Sys2Proof/Decode.lean ====
section
/-! DEFINITION. Decoding a statement's bytes (30_encoding.md R100, R101, R122), total and refusing by name, then the encoder
written from the same tables. Byte order of the fields and the length of each format: notes/assumptions/1.md. -/

namespace Sys2Proof

/-- Why a statement is no instruction (30_encoding.md R101, R123, R125). -/
inductive DecodeError where
  /-- No register at that offset (20_memory.md R73). -/
  | reservedOffset
  /-- A write to a read-only register, a narrow or a misaligned access (40_register_access.md R141, 20_memory.md R74). -/
  | badAccess
  /-- A command word outside the legal set (30_encoding.md R125). -/
  | illegalCommand
  /-- An `OP` code with no row (30_encoding.md R122, R123). -/
  | illegalOp
  /-- Bytes of the wrong number, or not zero where the statement has no operand (notes/assumptions/1.md). -/
  | malformed
  deriving DecidableEq, Repr

/-! ### Byte order -/

/-- The word of four bytes, the first the least significant (20_memory.md R75). -/
def wordOfBytes (b0 b1 b2 b3 : Byte) : Word := b3 ++ b2 ++ b1 ++ b0

/-- The four bytes of a word, least significant first. -/
def bytesOfWord (w : Word) : List Byte :=
  [w.extractLsb' 0 8, w.extractLsb' 8 8, w.extractLsb' 16 8, w.extractLsb' 24 8]

/-- An absent buffer is the operand value 0 (notes/assumptions/12.md). -/
def bufferOfWord (w : Word) : Option Word := if w = 0#32 then none else some w

/-- The operand value of a buffer. -/
def wordOfBuffer (b : Option Word) : Word := b.getD 0#32

/-! ### Register accesses -/

/-- The register access of a window and a 9-bit key `we : off[7:0]` (30_encoding.md R101). A write to a read-only register is
a bad access (40_register_access.md R141); every other key with no row is a reserved offset. -/
def decodeKey (w : Window) (key : Nat) (v : Word) : Except DecodeError Instr :=
  match w, key with
  | .gpio, 0x000 => .ok .rdGpioDir
  | .gpio, 0x100 => .ok (.wrGpioDir v)
  | .gpio, 0x004 => .ok .rdGpioOut
  | .gpio, 0x104 => .ok (.wrGpioOut v)
  | .gpio, 0x008 => .ok .rdGpioIn
  | .gpio, 0x00C => .ok .rdGpioIntEn
  | .gpio, 0x10C => .ok (.wrGpioIntEn v)
  | .gpio, 0x014 => .ok .rdGpioIntPend
  | .gpio, 0x018 => .ok .rdGpioIntClr
  | .gpio, 0x118 => .ok (.wrGpioIntClr v)
  | .gpio, 0x108 => .error .badAccess
  | .gpio, 0x114 => .error .badAccess
  | .timer, 0x000 => .ok .rdTimerMtimeLo
  | .timer, 0x100 => .ok (.wrTimerMtimeLo v)
  | .timer, 0x004 => .ok .rdTimerMtimeHi
  | .timer, 0x104 => .ok (.wrTimerMtimeHi v)
  | .timer, 0x008 => .ok .rdTimerMtimecmpLo
  | .timer, 0x108 => .ok (.wrTimerMtimecmpLo v)
  | .timer, 0x00C => .ok .rdTimerMtimecmpHi
  | .timer, 0x10C => .ok (.wrTimerMtimecmpHi v)
  | .pwm, 0x000 => .ok .rdPwm0Ctrl
  | .pwm, 0x100 => .ok (.wrPwm0Ctrl v)
  | .pwm, 0x004 => .ok .rdPwm0Period
  | .pwm, 0x104 => .ok (.wrPwm0Period v)
  | .pwm, 0x008 => .ok .rdPwm0Duty
  | .pwm, 0x108 => .ok (.wrPwm0Duty v)
  | .pwm, 0x00C => .ok .rdPwm0Counter
  | .pwm, 0x010 => .ok .rdPwm1Ctrl
  | .pwm, 0x110 => .ok (.wrPwm1Ctrl v)
  | .pwm, 0x014 => .ok .rdPwm1Period
  | .pwm, 0x114 => .ok (.wrPwm1Period v)
  | .pwm, 0x018 => .ok .rdPwm1Duty
  | .pwm, 0x118 => .ok (.wrPwm1Duty v)
  | .pwm, 0x01C => .ok .rdPwm1Counter
  | .pwm, 0x10C => .error .badAccess
  | .pwm, 0x11C => .error .badAccess
  | .i2c, 0x000 => .ok .rdI2cCtrl
  | .i2c, 0x100 => .ok (.wrI2cCtrl v)
  | .i2c, 0x004 => .ok .rdI2cStatus
  | .i2c, 0x008 => .ok .rdI2cData
  | .i2c, 0x108 => .ok (.wrI2cData v)
  | .i2c, 0x00C => .ok .rdI2cPrescale
  | .i2c, 0x10C => .ok (.wrI2cPrescale v)
  | .i2c, 0x104 => .error .badAccess
  | .spi, 0x000 => .ok .rdSpiCtrl
  | .spi, 0x100 => .ok (.wrSpiCtrl v)
  | .spi, 0x004 => .ok .rdSpiStatus
  | .spi, 0x008 => .ok .rdSpiTxdata
  | .spi, 0x108 => .ok (.wrSpiTxdata v)
  | .spi, 0x00C => .ok .rdSpiRxdata
  | .spi, 0x010 => .ok .rdSpiConfig
  | .spi, 0x110 => .ok (.wrSpiConfig v)
  | .spi, 0x104 => .error .badAccess
  | .spi, 0x10C => .error .badAccess
  | _, _ => .error .reservedOffset

/-- Whether a key is a write: its bit 8 (30_encoding.md R101). -/
def keyIsWrite (key : Nat) : Bool := decide (0x100 ≤ key)

/-- A register access as six bytes: the key in two, then the data word. A read carries no data. -/
def decodeMmio (w : Window) (bytes : List Byte) : Except DecodeError Instr :=
  match bytes with
  | [k0, k1, d0, d1, d2, d3] =>
    let key := k0.toNat + 256 * k1.toNat
    let v := wordOfBytes d0 d1 d2 d3
    if 512 ≤ key then .error .malformed
    else if keyIsWrite key || v == 0#32 then decodeKey w key v
    else .error .malformed
  | _ => .error .malformed

/-- Where the window of a base address and a size holds the address: the offset (30_encoding.md R101). -/
def windowOffset (base : Word) (size : Nat) (addr : Word) : Option Nat :=
  if base.toNat ≤ addr.toNat ∧ addr.toNat < base.toNat + size then some (addr.toNat - base.toNat) else none

/-- The window an address falls in, with the offset (30_encoding.md R101, sizes of 20_memory.md R71). -/
def locate (b : Bases) (addr : Word) : Option (Window × Nat) :=
  ((windowOffset b.gpio 0x1C addr).map (Prod.mk .gpio)).or <|
  ((windowOffset b.timer 0x10 addr).map (Prod.mk .timer)).or <|
  ((windowOffset b.pwm 0x20 addr).map (Prod.mk .pwm)).or <|
  ((windowOffset b.i2c 0x10 addr).map (Prod.mk .i2c)).or <|
  ((windowOffset b.spi 0x14 addr).map (Prod.mk .spi))

/-- A bus access by address: 32 bits wide and aligned, or refused (20_memory.md R74); outside every window, or at an offset
with no register, refused (R73). An access that is both is a bad access (DESIGN CHOICE, notes/assumptions/14.md). -/
def decodeBus (p : Params) (addr : Word) (bits : Nat) (write : Bool) (data : Word) : Except DecodeError Instr :=
  if bits ≠ 32 ∨ addr.toNat % 4 ≠ 0 then .error .badAccess
  else match locate p.bases addr with
    | some (w, off) => decodeKey w (if write then 0x100 + off else off) data
    | none => .error .reservedOffset

/-! ### Command words -/

/-- A command word of a port: one of the parameters of 30_encoding.md R103 and R107, or illegal (R125), and then refused before
any state is looked at, a unit or a phase in flight or not (DESIGN CHOICE, notes/assumptions/14.md). -/
def decodeCommand (p : Params) (port : Port) (w : Word) : Except DecodeError Instr :=
  match port with
  | .spi =>
    if w = p.spiStart8 then .ok .spiStart8
    else if w = p.spiStart16 then .ok .spiStart16
    else if w = p.spiStart32 then .ok .spiStart32
    else .error .illegalCommand
  | .i2c =>
    if w = p.i2cStart then .ok .i2cStart
    else if w = p.i2cRestart then .ok .i2cRestart
    else if w = p.i2cWrite then .ok .i2cWrite
    else if w = p.i2cReadAck then .ok .i2cReadAck
    else if w = p.i2cReadNack then .ok .i2cReadNack
    else if w = p.i2cStop then .ok .i2cStop
    else .error .illegalCommand

/-- A command word as four bytes. -/
def decodeCmd (p : Params) (port : Port) (bytes : List Byte) : Except DecodeError Instr :=
  match bytes with
  | [b0, b1, b2, b3] => decodeCommand p port (wordOfBytes b0 b1 b2 b3)
  | _ => .error .malformed

/-! ### Operations -/

/-- The operation of a select code and its operand values, with how many of them it takes (30_encoding.md R122). -/
def decodeCode (code : Nat) (a b c d : Word) : Option (Instr × Nat) :=
  match code with
  | 0x10 => some (.gpioSetDir a b, 2)
  | 0x11 => some (.gpioGetDir a, 1)
  | 0x12 => some (.gpioSetDirMask a, 1)
  | 0x13 => some (.gpioGetDirMask, 0)
  | 0x14 => some (.gpioSetPin a, 1)
  | 0x15 => some (.gpioClearPin a, 1)
  | 0x16 => some (.gpioTogglePin a, 1)
  | 0x17 => some (.gpioWritePin a b, 2)
  | 0x18 => some (.gpioWrite a, 1)
  | 0x19 => some (.gpioReadPin a, 1)
  | 0x1A => some (.gpioRead, 0)
  | 0x1B => some (.gpioIntEnable a, 1)
  | 0x1C => some (.gpioIntDisable a, 1)
  | 0x1D => some (.gpioIntPending, 0)
  | 0x1E => some (.gpioIntClear a, 1)
  | 0x1F => some (.gpioSetAll, 0)
  | 0x20 => some (.gpioClearAll, 0)
  | 0x21 => some (.gpioToggleAll, 0)
  | 0x30 => some (.irqInit a, 1)
  | 0x31 => some (.irqRegister a b, 2)
  | 0x32 => some (.irqDispatch a, 1)
  | 0x33 => some (.irqGlobalEnable, 0)
  | 0x34 => some (.irqGlobalDisable, 0)
  | 0x35 => some (.irqEnableTimer, 0)
  | 0x36 => some (.irqEnableExternal, 0)
  | 0x37 => some (.irqDisableTimer, 0)
  | 0x38 => some (.irqDisableExternal, 0)
  | 0x40 => some (.spiXfer8 a, 1)
  | 0x41 => some (.spiXfer16 a, 1)
  | 0x42 => some (.spiXfer32 a, 1)
  | 0x43 => some (.spiXfern8 (bufferOfWord a) (bufferOfWord b) c, 3)
  | 0x44 => some (.spiXfern16 (bufferOfWord a) (bufferOfWord b) c, 3)
  | 0x45 => some (.spiXfern32 (bufferOfWord a) (bufferOfWord b) c, 3)
  | 0x46 => some (.spiBurst a b, 2)
  | 0x47 => some (.spiSetDiv a, 1)
  | 0x48 => some (.spiSetMode a, 1)
  | 0x50 => some (.i2cWriteN a b c, 3)
  | 0x51 => some (.i2cReadN a b c d, 4)
  | 0x52 => some (.i2cRtwb a, 1)
  | 0x53 => some (.i2cRtwbRs a, 1)
  | 0x54 => some (.i2cSetPrescale a, 1)
  | 0x60 => some (.pwmInit a, 1)
  | 0x61 => some (.pwmSetPeriod a b, 2)
  | 0x62 => some (.pwmSetDuty a b, 2)
  | 0x63 => some (.pwmEnable a, 1)
  | 0x64 => some (.pwmDisable a, 1)
  | 0x65 => some (.pwmStart a b c, 3)
  | 0x66 => some (.pwmReadCounter a, 1)
  | _ => none

/-- An operation as seventeen bytes: the select code, then four operand words, those it does not take zero. -/
def decodeOp (bytes : List Byte) : Except DecodeError Instr :=
  match bytes with
  | [code, a0, a1, a2, a3, b0, b1, b2, b3, c0, c1, c2, c3, d0, d1, d2, d3] =>
    let a := wordOfBytes a0 a1 a2 a3
    let b := wordOfBytes b0 b1 b2 b3
    let c := wordOfBytes c0 c1 c2 c3
    let d := wordOfBytes d0 d1 d2 d3
    match decodeCode code.toNat a b c d with
    | none => .error .illegalOp
    | some (i, arity) =>
      if ([a, b, c, d].drop arity).all (· == 0#32) then .ok i else .error .malformed
  | _ => .error .malformed

/-- The instruction of a format's bytes, total on any bytes. -/
def decodeBytes (p : Params) (f : Format) (bytes : List Byte) : Except DecodeError Instr :=
  match f with
  | .mmio w => decodeMmio w bytes
  | .cmd port => decodeCmd p port bytes
  | .op => decodeOp bytes

/-- The length of each format in bytes: one length per format (30_encoding.md R100; notes/assumptions/1.md). -/
def Format.size : Format → Nat
  | .mmio _ => 6
  | .cmd _ => 4
  | .op => 17

/-! ### The encoder -/

/-- The six bytes of a register access. -/
def mmioBytes (key : Nat) (v : Word) : List Byte :=
  BitVec.ofNat 8 key :: BitVec.ofNat 8 (key / 256) :: bytesOfWord v

/-- The seventeen bytes of an operation. -/
def opBytes (code : Byte) (a b c d : Word) : List Byte :=
  code :: (bytesOfWord a ++ bytesOfWord b ++ bytesOfWord c ++ bytesOfWord d)

/-- The format and bytes of an instruction, written from the same tables: 30_encoding.md R101 (register accesses), R103 and
R107 (command words), R122 (operations). -/
def encode (p : Params) : Instr → Format × List Byte
  | .rdGpioDir => (.mmio .gpio, mmioBytes 0x000 0#32)
  | .wrGpioDir v => (.mmio .gpio, mmioBytes 0x100 v)
  | .rdGpioOut => (.mmio .gpio, mmioBytes 0x004 0#32)
  | .wrGpioOut v => (.mmio .gpio, mmioBytes 0x104 v)
  | .rdGpioIn => (.mmio .gpio, mmioBytes 0x008 0#32)
  | .rdGpioIntEn => (.mmio .gpio, mmioBytes 0x00C 0#32)
  | .wrGpioIntEn v => (.mmio .gpio, mmioBytes 0x10C v)
  | .rdGpioIntPend => (.mmio .gpio, mmioBytes 0x014 0#32)
  | .rdGpioIntClr => (.mmio .gpio, mmioBytes 0x018 0#32)
  | .wrGpioIntClr v => (.mmio .gpio, mmioBytes 0x118 v)
  | .rdTimerMtimeLo => (.mmio .timer, mmioBytes 0x000 0#32)
  | .wrTimerMtimeLo v => (.mmio .timer, mmioBytes 0x100 v)
  | .rdTimerMtimeHi => (.mmio .timer, mmioBytes 0x004 0#32)
  | .wrTimerMtimeHi v => (.mmio .timer, mmioBytes 0x104 v)
  | .rdTimerMtimecmpLo => (.mmio .timer, mmioBytes 0x008 0#32)
  | .wrTimerMtimecmpLo v => (.mmio .timer, mmioBytes 0x108 v)
  | .rdTimerMtimecmpHi => (.mmio .timer, mmioBytes 0x00C 0#32)
  | .wrTimerMtimecmpHi v => (.mmio .timer, mmioBytes 0x10C v)
  | .rdPwm0Ctrl => (.mmio .pwm, mmioBytes 0x000 0#32)
  | .wrPwm0Ctrl v => (.mmio .pwm, mmioBytes 0x100 v)
  | .rdPwm0Period => (.mmio .pwm, mmioBytes 0x004 0#32)
  | .wrPwm0Period v => (.mmio .pwm, mmioBytes 0x104 v)
  | .rdPwm0Duty => (.mmio .pwm, mmioBytes 0x008 0#32)
  | .wrPwm0Duty v => (.mmio .pwm, mmioBytes 0x108 v)
  | .rdPwm0Counter => (.mmio .pwm, mmioBytes 0x00C 0#32)
  | .rdPwm1Ctrl => (.mmio .pwm, mmioBytes 0x010 0#32)
  | .wrPwm1Ctrl v => (.mmio .pwm, mmioBytes 0x110 v)
  | .rdPwm1Period => (.mmio .pwm, mmioBytes 0x014 0#32)
  | .wrPwm1Period v => (.mmio .pwm, mmioBytes 0x114 v)
  | .rdPwm1Duty => (.mmio .pwm, mmioBytes 0x018 0#32)
  | .wrPwm1Duty v => (.mmio .pwm, mmioBytes 0x118 v)
  | .rdPwm1Counter => (.mmio .pwm, mmioBytes 0x01C 0#32)
  | .rdI2cCtrl => (.mmio .i2c, mmioBytes 0x000 0#32)
  | .wrI2cCtrl v => (.mmio .i2c, mmioBytes 0x100 v)
  | .rdI2cStatus => (.mmio .i2c, mmioBytes 0x004 0#32)
  | .rdI2cData => (.mmio .i2c, mmioBytes 0x008 0#32)
  | .wrI2cData v => (.mmio .i2c, mmioBytes 0x108 v)
  | .rdI2cPrescale => (.mmio .i2c, mmioBytes 0x00C 0#32)
  | .wrI2cPrescale v => (.mmio .i2c, mmioBytes 0x10C v)
  | .rdSpiCtrl => (.mmio .spi, mmioBytes 0x000 0#32)
  | .wrSpiCtrl v => (.mmio .spi, mmioBytes 0x100 v)
  | .rdSpiStatus => (.mmio .spi, mmioBytes 0x004 0#32)
  | .rdSpiTxdata => (.mmio .spi, mmioBytes 0x008 0#32)
  | .wrSpiTxdata v => (.mmio .spi, mmioBytes 0x108 v)
  | .rdSpiRxdata => (.mmio .spi, mmioBytes 0x00C 0#32)
  | .rdSpiConfig => (.mmio .spi, mmioBytes 0x010 0#32)
  | .wrSpiConfig v => (.mmio .spi, mmioBytes 0x110 v)
  | .spiStart8 => (.cmd .spi, bytesOfWord p.spiStart8)
  | .spiStart16 => (.cmd .spi, bytesOfWord p.spiStart16)
  | .spiStart32 => (.cmd .spi, bytesOfWord p.spiStart32)
  | .i2cStart => (.cmd .i2c, bytesOfWord p.i2cStart)
  | .i2cRestart => (.cmd .i2c, bytesOfWord p.i2cRestart)
  | .i2cWrite => (.cmd .i2c, bytesOfWord p.i2cWrite)
  | .i2cReadAck => (.cmd .i2c, bytesOfWord p.i2cReadAck)
  | .i2cReadNack => (.cmd .i2c, bytesOfWord p.i2cReadNack)
  | .i2cStop => (.cmd .i2c, bytesOfWord p.i2cStop)
  | .gpioSetDir pin dir => (.op, opBytes 0x10#8 pin dir 0#32 0#32)
  | .gpioGetDir pin => (.op, opBytes 0x11#8 pin 0#32 0#32 0#32)
  | .gpioSetDirMask mask => (.op, opBytes 0x12#8 mask 0#32 0#32 0#32)
  | .gpioGetDirMask => (.op, opBytes 0x13#8 0#32 0#32 0#32 0#32)
  | .gpioSetPin pin => (.op, opBytes 0x14#8 pin 0#32 0#32 0#32)
  | .gpioClearPin pin => (.op, opBytes 0x15#8 pin 0#32 0#32 0#32)
  | .gpioTogglePin pin => (.op, opBytes 0x16#8 pin 0#32 0#32 0#32)
  | .gpioWritePin pin level => (.op, opBytes 0x17#8 pin level 0#32 0#32)
  | .gpioWrite mask => (.op, opBytes 0x18#8 mask 0#32 0#32 0#32)
  | .gpioReadPin pin => (.op, opBytes 0x19#8 pin 0#32 0#32 0#32)
  | .gpioRead => (.op, opBytes 0x1A#8 0#32 0#32 0#32 0#32)
  | .gpioIntEnable pin => (.op, opBytes 0x1B#8 pin 0#32 0#32 0#32)
  | .gpioIntDisable pin => (.op, opBytes 0x1C#8 pin 0#32 0#32 0#32)
  | .gpioIntPending => (.op, opBytes 0x1D#8 0#32 0#32 0#32 0#32)
  | .gpioIntClear pin => (.op, opBytes 0x1E#8 pin 0#32 0#32 0#32)
  | .gpioSetAll => (.op, opBytes 0x1F#8 0#32 0#32 0#32 0#32)
  | .gpioClearAll => (.op, opBytes 0x20#8 0#32 0#32 0#32 0#32)
  | .gpioToggleAll => (.op, opBytes 0x21#8 0#32 0#32 0#32 0#32)
  | .irqInit entry => (.op, opBytes 0x30#8 entry 0#32 0#32 0#32)
  | .irqRegister n handler => (.op, opBytes 0x31#8 n handler 0#32 0#32)
  | .irqDispatch cause => (.op, opBytes 0x32#8 cause 0#32 0#32 0#32)
  | .irqGlobalEnable => (.op, opBytes 0x33#8 0#32 0#32 0#32 0#32)
  | .irqGlobalDisable => (.op, opBytes 0x34#8 0#32 0#32 0#32 0#32)
  | .irqEnableTimer => (.op, opBytes 0x35#8 0#32 0#32 0#32 0#32)
  | .irqEnableExternal => (.op, opBytes 0x36#8 0#32 0#32 0#32 0#32)
  | .irqDisableTimer => (.op, opBytes 0x37#8 0#32 0#32 0#32 0#32)
  | .irqDisableExternal => (.op, opBytes 0x38#8 0#32 0#32 0#32 0#32)
  | .spiXfer8 tx => (.op, opBytes 0x40#8 tx 0#32 0#32 0#32)
  | .spiXfer16 tx => (.op, opBytes 0x41#8 tx 0#32 0#32 0#32)
  | .spiXfer32 tx => (.op, opBytes 0x42#8 tx 0#32 0#32 0#32)
  | .spiXfern8 txbuf rxbuf count => (.op, opBytes 0x43#8 (wordOfBuffer txbuf) (wordOfBuffer rxbuf) count 0#32)
  | .spiXfern16 txbuf rxbuf count => (.op, opBytes 0x44#8 (wordOfBuffer txbuf) (wordOfBuffer rxbuf) count 0#32)
  | .spiXfern32 txbuf rxbuf count => (.op, opBytes 0x45#8 (wordOfBuffer txbuf) (wordOfBuffer rxbuf) count 0#32)
  | .spiBurst buf len => (.op, opBytes 0x46#8 buf len 0#32 0#32)
  | .spiSetDiv div => (.op, opBytes 0x47#8 div 0#32 0#32 0#32)
  | .spiSetMode mode => (.op, opBytes 0x48#8 mode 0#32 0#32 0#32)
  | .i2cWriteN addr7 buf n => (.op, opBytes 0x50#8 addr7 buf n 0#32)
  | .i2cReadN addr7 buf n nackLast => (.op, opBytes 0x51#8 addr7 buf n nackLast)
  | .i2cRtwb addr7 => (.op, opBytes 0x52#8 addr7 0#32 0#32 0#32)
  | .i2cRtwbRs addr7 => (.op, opBytes 0x53#8 addr7 0#32 0#32 0#32)
  | .i2cSetPrescale div => (.op, opBytes 0x54#8 div 0#32 0#32 0#32)
  | .pwmInit ch => (.op, opBytes 0x60#8 ch 0#32 0#32 0#32)
  | .pwmSetPeriod ch period => (.op, opBytes 0x61#8 ch period 0#32 0#32)
  | .pwmSetDuty ch duty => (.op, opBytes 0x62#8 ch duty 0#32 0#32)
  | .pwmEnable ch => (.op, opBytes 0x63#8 ch 0#32 0#32 0#32)
  | .pwmDisable ch => (.op, opBytes 0x64#8 ch 0#32 0#32 0#32)
  | .pwmStart ch period duty => (.op, opBytes 0x65#8 ch period duty 0#32)
  | .pwmReadCounter ch => (.op, opBytes 0x66#8 ch 0#32 0#32 0#32)

/-! ### Words of the opcode table -/

/-- The format and bytes a bare table word of `nbits` bits may stand for, in the table's order: an operation (8 bits), a
register access of one of the windows (9 bits in two bytes) or a command word of one of the ports (32 bits). The table keeps the
window and the port outside the word (notes/assumptions/2.md). -/
def tableCandidates (nbits w : Nat) : List (Format × List Byte) :=
  let byte (k : Nat) : Byte := BitVec.ofNat 8 (w % 2 ^ nbits / 256 ^ k)
  if nbits ≤ 8 then [(.op, byte 0 :: List.replicate 16 0#8)]
  else if nbits ≤ 16 then
    [Window.gpio, .timer, .pwm, .i2c, .spi].map fun x => (.mmio x, [byte 0, byte 1, 0#8, 0#8, 0#8, 0#8])
  else [Port.spi, .i2c].map fun x => (.cmd x, [byte 0, byte 1, byte 2, byte 3])

/-- Whether the decoder reads an instruction. -/
def decodes (p : Params) (c : Format × List Byte) : Bool :=
  match decodeBytes p c.1 c.2 with
  | .ok _ => true
  | .error _ => false

/-- The first candidate the decoder reads (or the first of all, which it then refuses). -/
def tableStatement (p : Params) (nbits w : Nat) : Format × List Byte :=
  ((tableCandidates nbits w).find? (decodes p)).getD ((tableCandidates nbits w).headD (.op, []))

/-- The instruction the decoder reads from a word of `nbits` bits of spec/opcode_table.json, every bit above `nbits` zero. -/
def decodeTableWord (nbits w : Nat) : Option Instr :=
  let c := tableStatement Config.params nbits w
  match decodeBytes Config.params c.1 c.2 with
  | .ok i => some i
  | .error _ => none

end Sys2Proof
end

