-- ==== Sys2Proof/Machine/State.lean ====
section
/-! DEFINITION. The state of the block as plain data (10_state.md R20), the reasons a step stops, and the machine right after
reset (10_state.md R56, 70_reset_and_hazards.md R410). -/

namespace Sys2Proof.Machine

/-! ### Devices -/

/-- GPIO registers and hidden detector state (10_state.md R21 to R28). -/
structure Gpio where
  /-- GPIO.DIR, R21. -/
  dir : Word
  /-- GPIO.OUT, R22. -/
  out : Word
  /-- GPIO.INT_EN, R24. -/
  intEn : Word
  /-- GPIO.INT_PEND, R25. -/
  intPend : Word
  /-- `gpio.in_prev`, R27. -/
  inPrev : Word
  /-- `gpio.ext`, the external pad levels, R28. -/
  ext : Word
  deriving DecidableEq, Repr

/-- The unit the SPI engine is exchanging: its width and value (10_state.md R35). -/
structure SpiUnit where
  width : SpiWidth
  value : Word
  deriving DecidableEq, Repr

/-- SPI registers and hidden engine state (10_state.md R31 to R35). -/
structure Spi where
  /-- SPI.STATUS.BUSY, R31. -/
  busy : Bool
  /-- SPI.STATUS.DONE, R31. -/
  done : Bool
  txdata : Word
  rxdata : Word
  config : Word
  /-- `spi.inflight`, R35. -/
  inflight : Option SpiUnit
  deriving DecidableEq, Repr

/-- An I2C phase in flight, with the byte it sends or the acknowledge it answers (10_state.md R40). -/
inductive I2cCmd where
  | start (b : Byte)
  | restart (b : Byte)
  | write (b : Byte)
  | read (ack : Bool)
  | stop
  deriving DecidableEq, Repr, Inhabited

/-- I2C registers, flags and hidden engine state (10_state.md R37 to R40). BUSY is computed (44_i2c.md R288). -/
structure I2c where
  ack : Bool
  arbLost : Bool
  done : Bool
  error : Bool
  data : Word
  prescale : Word
  /-- `i2c.cmd`. -/
  cmd : Option I2cCmd
  /-- `i2c.own`. -/
  own : Bool
  /-- `i2c.ext_busy`. -/
  extBusy : Bool
  deriving DecidableEq, Repr

/-- `disp.state` (10_state.md R42). -/
inductive DispState where
  | uninitialized | armed
  deriving DecidableEq, Repr

/-- The dispatcher: its state and the vector table (10_state.md R42, R43). -/
structure Disp where
  state : DispState
  table : Vector Word 16
  deriving DecidableEq, Repr

/-- MTIME and MTIMECMP (10_state.md R46, R47). -/
structure Timer where
  mtime : BitVec 64
  mtimecmp : BitVec 64
  deriving DecidableEq, Repr

/-- One PWM channel (10_state.md R48 to R50); the counter is a draw at every read (R51). -/
structure Pwm where
  ctrl : Word
  period : BitVec 16
  duty : BitVec 16
  deriving DecidableEq, Repr

/-! ### Sequencer and contexts -/

/-- The states of the I2C protocol machine (10_state.md R41, 44_i2c.md R315). -/
inductive I2cState where
  | idle | addrSent | data | restart | stop
  deriving DecidableEq, Repr, Inhabited

/-- The micro-step an I2C operation performs next inside a state of R315: the lines of 44_i2c.md R304 and R313. -/
inductive I2cPos where
  | waitIdle | addrData | addrCtrl | waitDone | load | putData | putCmd | getData | store | putStop | abort | abortIdle
  deriving DecidableEq, Repr, Inhabited

/-- `seq.phase`: the next micro-step of the operation a context is running (10_state.md R52). -/
inductive Phase where
  /-- No operation begun: the head statement starts with its first micro-step. -/
  | idle
  /-- A read-modify-write has read; its write is next (40_register_access.md R143). -/
  | rmwWrite
  /-- A control-register read-modify-write has read; its write is next (R146). -/
  | csrWrite
  /-- Only the operation's return is left (42_irq_dispatcher.md R204). -/
  | ret
  /-- IRQ.INIT: the next table entry is cleared (42_irq_dispatcher.md R200). -/
  | irqClear
  /-- IRQ.INIT: the vector is written. -/
  | irqVector
  /-- IRQ.DISPATCH: the handler has been called (R202). -/
  | irqReturn
  /-- The next unit of a multi-unit transfer begins (43_spi.md R248). -/
  | spiUnit
  /-- The unit transfer writes TXDATA (R244). -/
  | spiTx
  /-- It writes CTRL. -/
  | spiCtrl
  /-- It polls DONE. -/
  | spiPoll
  /-- It reads RXDATA. -/
  | spiRx
  /-- A multi-unit transfer stores the received unit (R248). -/
  | spiStore
  /-- SPI.BURST checks, then loads its next unit (R251). -/
  | burstUnit
  /-- SPI.BURST writes TXDATA. -/
  | burstTx
  /-- SPI.BURST writes CTRL. -/
  | burstCtrl
  /-- SPI.BURST polls DONE after its last unit. -/
  | burstPoll
  /-- A PWM operation writes PERIOD next (45_timer_pwm.md R350). -/
  | pwmPeriod
  /-- It writes DUTY next (R350, R355). -/
  | pwmDuty
  /-- It reads CTRL next (R355). -/
  | pwmCtrl
  /-- An I2C operation (44_i2c.md R315). -/
  | i2c (st : I2cState) (pos : I2cPos)
  /-- The trap entry stub reads `mcause` next (60_exceptions.md R378). -/
  | stubEntry
  deriving DecidableEq, Repr, Inhabited

/-- `seq.locals`: the values an operation keeps between micro-steps (10_state.md R53). -/
structure Locals where
  /-- The last register word read. -/
  v : Word
  /-- The loop index. -/
  idx : Nat
  /-- The unit to send, or the unit received. -/
  unit : Word
  /-- The byte to send, or the byte read. -/
  byte : Byte
  /-- The result an abort returns. -/
  code : Word
  /-- Whether a two-part transaction is in its second part. -/
  second : Bool
  deriving DecidableEq, Repr

/-- No local written (10_state.md R53: no rule reads one before it is written). -/
def Locals.none : Locals := { v := 0#32, idx := 0, unit := 0#32, byte := 0#8, code := 0#32, second := false }

/-- What a context is: the main context, the trap entry stub at an entry address (60_exceptions.md R378), or a bound handler
(42_irq_dispatcher.md R203). -/
inductive FrameKind where
  | main
  | stub (entry : Word)
  | handler (number : Nat) (ref : Word)
  deriving DecidableEq, Repr

/-- One host context: what it has still to run, where its operation stands, and what its last operation returned
(10_state.md R52, R53; notes/assumptions/3.md, notes/assumptions/34.md). -/
structure Frame where
  kind : FrameKind
  /-- The statements left; the first is the one running. -/
  prog : List Request
  phase : Phase
  loc : Locals
  /-- What the last completed statement returned, if anything. -/
  result : Option Word
  /-- The code of the exception the context's next micro-step raises (60_exceptions.md R371; notes/assumptions/22.md). -/
  raising : Option (BitVec 31)
  deriving DecidableEq, Repr

/-- `mepc`: the resume point of an interrupted context (60_exceptions.md R377): how many contexts stand below it, how many
statements it has left, and its phase (notes/assumptions/19.md). -/
structure ResumePoint where
  depth : Nat
  left : Nat
  phase : Phase
  deriving DecidableEq, Repr, Inhabited

/-- The host control registers (10_state.md R44). `mip` is computed. -/
structure Csr where
  mstatusMIE : Bool
  mstatusMPIE : Bool
  mie : Word
  mtvec : Word
  mepc : ResumePoint
  mcause : Word
  deriving DecidableEq, Repr

/-! ### History, agenda, free values -/

/-- The events of the history (00_scope.md R12). -/
inductive Event where
  | regRd (r : Reg) (v : Word)
  | regWr (r : Reg) (v : Word)
  | spiUnit (w : SpiWidth) (mosi miso : Word)
  | i2cStart
  | i2cRestart
  | i2cAddr (addr7 : BitVec 7) (dir : Bool) (acked : Bool)
  | i2cWrite (b : Byte) (acked : Bool)
  | i2cRead (b : Byte) (ackSent : Bool)
  | i2cStop
  | i2cArbLost
  | i2cBusError
  | padChange (pin : Nat) (level : Bool)
  | edge (pin : Nat)
  | trapTaken (cause : Word)
  | handlerCall (n : Nat) (h : Word)
  | handlerReturn (n : Nat)
  deriving DecidableEq, Repr

/-- The outcomes of an I2C phase (44_i2c.md R290). -/
inductive I2cOutcome where
  | acked | nacked | arbLost | busError | byte (v : Byte) | ok
  deriving DecidableEq, Repr

/-- Who moves next, and with which answer (00_scope.md R8, R9; notes/assumptions/4.md). -/
inductive Move where
  /-- The host context (agents a and b). -/
  | host
  /-- The SPI engine, with the peripheral's answer (43_spi.md R236, R238). -/
  | spi (answer : Word)
  /-- The I2C engine, with the bus's outcome (44_i2c.md R290). -/
  | i2c (o : I2cOutcome)
  /-- The GPIO edge detector (41_gpio.md R168). -/
  | detect
  /-- The environment sets the external pad levels (41_gpio.md R167). -/
  | pads (ext : Word)
  /-- Another controller takes or frees the I2C bus (44_i2c.md R291). -/
  | extBusy (b : Bool)
  /-- The timer advances (45_timer_pwm.md R344). -/
  | timer (k : BitVec 64)
  /-- The host core's next micro-step raises a synchronous exception (60_exceptions.md R371; notes/assumptions/22.md). -/
  | raise (code : BitVec 31)
  deriving DecidableEq, Repr

/-- Where the values of `draw` come from: supplied words first, then the opaque Config.draw (notes/assumptions/5.md). -/
structure Draws where
  supply : List Word
  used : Nat
  deriving DecidableEq, Repr

/-- Host buffer memory: listed bytes at strictly rising addresses, none of them the value of an unlisted byte
(notes/assumptions/9.md). -/
abbrev Memory := List Host.Cell

/-! ### Why a step stops -/

/-- The faults. -/
inductive Fault where
  /-- Raised by a write to SPI.TXDATA, SPI.CTRL or SPI.CONFIG with a unit in flight (43_spi.md R237). Safe: the spec stops. -/
  | spiOverrun (r : Reg)
  /-- Raised by a write to I2C.CTRL or I2C.DATA with a phase in flight (44_i2c.md R292). Safe: the spec stops. -/
  | i2cOverrun (r : Reg)
  /-- Raised by a trap or an IRQ.DISPATCH before IRQ.INIT (60_exceptions.md R377, 42_irq_dispatcher.md R202). Safe. -/
  | trapUninitialized (cause : Word)
  /-- Raised by a buffer access past the 32-bit address space (notes/assumptions/10.md). Safe: such a byte does not exist. -/
  | noSuchAddress (addr : Nat)
  /-- Raised where a context stands at a phase its statement does not have; no run reaches it (notes/assumptions/28.md).
  Safe. -/
  | lostSequence
  deriving DecidableEq, Repr

/-- The refusals. -/
inductive Refusal where
  /-- Raised by exec for an instruction with no meaning yet: no arm uses it. Safe. -/
  | notModelled (mnemonic : String)
  /-- Raised by an access to an offset with no register (20_memory.md R73). Safe: the spec refuses. -/
  | reservedOffset
  /-- Raised by a narrow or misaligned access or a write to a read-only register (20_memory.md R74,
  40_register_access.md R141). Safe: the spec refuses. -/
  | badAccess
  /-- Raised by a misaligned buffer access or a buffer over a register window (20_memory.md R76, R84). Safe. -/
  | misalignedBuffer
  /-- Raised by a command word outside the legal set (30_encoding.md R125). Safe: the spec refuses. -/
  | illegalCommand
  /-- Raised by an I2C command whose precondition fails, or a PRESCALE write in flight (44_i2c.md R294, R289). Safe. -/
  | illegalPhase
  /-- Raised by an I2C address above 0x7F (44_i2c.md R304). Safe: the spec refuses. -/
  | badAddress
  /-- Raised by a dispatcher operation before IRQ.INIT (42_irq_dispatcher.md R211). Safe: the spec refuses. -/
  | useBeforeInit
  /-- Raised by a trap entry inside a trap (60_exceptions.md R380). Safe: the spec refuses. -/
  | nestedTrap
  /-- Raised by an `OP` code with no row (30_encoding.md R123). Safe: the spec refuses. -/
  | illegalOp
  /-- Raised by bytes that are no statement: of the wrong number, or not zero where the statement has no operand
  (notes/assumptions/1.md). Safe: the model declines the step. -/
  | malformedRequest
  deriving DecidableEq, Repr

/-! ### The state -/

/-- The whole state (10_state.md R20), and the model's own fields: `params`, the frames' programs, `moves`, `draws`. -/
structure State where
  /-- The parameters of 00_scope.md R5; no step changes them. -/
  params : Params
  gpio : Gpio
  spi : Spi
  i2c : I2c
  disp : Disp
  csr : Csr
  /-- `trap.depth`, 10_state.md R45. -/
  trapDepth : Nat
  timer : Timer
  pwm0 : Pwm
  pwm1 : Pwm
  /-- The running context. -/
  cur : Frame
  /-- The suspended contexts, the innermost first. -/
  susp : List Frame
  mem : Memory
  /-- `faulted`, 10_state.md R54. -/
  faulted : Option Fault
  /-- `refused`, 10_state.md R54. -/
  refused : Option Refusal
  /-- `history`, 10_state.md R55. -/
  history : List Event
  /-- The agenda (notes/assumptions/4.md). -/
  moves : List Move
  /-- The free values (notes/assumptions/5.md). -/
  draws : Draws
  deriving DecidableEq, Repr

/-- The main context with nothing to run (10_state.md R52: idle at reset). -/
def Frame.idleMain : Frame :=
  { kind := .main, prog := [], phase := .idle, loc := Locals.none, result := Option.none, raising := Option.none }

end Sys2Proof.Machine

namespace Sys2Proof

/-! ### Free values of the reset state (10_state.md R56; notes/assumptions/8.md, notes/assumptions/19.md) -/

/-- The SPI unit in flight at power-on, if any: its width, and a word whose low bits are its value. -/
opaque Config.resetUnit : Option (SpiWidth × Word)
/-- The I2C phase in flight at power-on, if any. -/
opaque Config.resetPhase : Option Machine.I2cCmd
/-- `mepc` at power-on. -/
opaque Config.resetResume : Machine.ResumePoint

/-! ### Free values of reads -/

/-- The word a read of `mepc` gives for a resume point, all of it: the host's code addresses are not in the source (00_scope.md
R7, 10_state.md R44; DESIGN CHOICE, notes/assumptions/19.md). -/
opaque Config.resumeAddress : Machine.ResumePoint → Word

end Sys2Proof

namespace Sys2Proof.Machine

/-- A unit of a width, from the low bits of a word (10_state.md R35). -/
def SpiUnit.ofWord : SpiWidth → Word → SpiUnit
  | .w8, v => { width := .w8, value := v &&& 0xFF#32 }
  | .w16, v => { width := .w16, value := v &&& 0xFFFF#32 }
  | .w32, v => { width := .w32, value := v }

/-- The SPI unit in flight at power-on, if any. -/
def resetInflight : Option SpiUnit := Config.resetUnit.map fun u => SpiUnit.ofWord u.1 u.2

/-- The machine right after power-on (10_state.md R56, 70_reset_and_hazards.md R410): the values the spec states, free
constants where it states none (notes/assumptions/7.md), the engines' state among them, within what R31, R35 and 44_i2c.md R291
say always holds of it (notes/assumptions/8.md). -/
def State.reset : State where
  params := Config.params
  gpio :=
    { dir := Config.resetWord 0, out := Config.resetWord 1, intEn := Config.resetWord 2, intPend := Config.resetWord 3,
      inPrev := Config.resetWord 4, ext := Config.resetWord 5 }
  spi :=
    { busy := resetInflight.isSome, done := !resetInflight.isSome && Config.resetFlag 0, txdata := Config.resetWord 6,
      rxdata := Config.resetWord 7, config := Config.resetWord 8, inflight := resetInflight }
  i2c :=
    { ack := Config.resetFlag 1, arbLost := Config.resetFlag 2, done := Config.resetFlag 3, error := Config.resetFlag 4,
      data := (Config.resetWord 9).setWidth 8 |>.setWidth 32, prescale := Config.resetWord 10,
      cmd := Config.resetPhase, own := Config.resetFlag 6, extBusy := !Config.resetFlag 6 && Config.resetFlag 7 }
  disp := { state := .uninitialized, table := Vector.ofFn fun n => Config.resetWord (32 + n.val) }
  csr :=
    { mstatusMIE := false, mstatusMPIE := Config.resetFlag 5, mie := Config.resetWord 11, mtvec := Config.resetWord 12,
      mepc := Config.resetResume, mcause := Config.resetWord 13 }
  trapDepth := 0
  timer := { mtime := Config.resetTimer 0, mtimecmp := Config.resetTimer 1 }
  pwm0 :=
    { ctrl := Config.resetWord 14, period := (Config.resetWord 15).setWidth 16, duty := (Config.resetWord 16).setWidth 16 }
  pwm1 :=
    { ctrl := Config.resetWord 17, period := (Config.resetWord 18).setWidth 16, duty := (Config.resetWord 19).setWidth 16 }
  cur := Frame.idleMain
  susp := []
  mem := []
  faulted := none
  refused := none
  history := []
  moves := []
  draws := { supply := [], used := 0 }

end Sys2Proof.Machine
end

