-- ==== Sys2Proof/Machine/Operands.lean ====
section
/-! DEFINITION. Operand assembly and checks (30_encoding.md R116 to R121, 45_timer_pwm.md R357, 20_memory.md R84). -/

namespace Sys2Proof.Machine

/-! ### Pins -/

/-- The implemented bits `[PIN_MAX:0]` of a GPIO register (10_state.md R29, 30_encoding.md R102). -/
def pinMask (p : Params) : Word := onesWord (p.pinMax + 1)

/-- A pin operand is valid when `pin <= PIN_MAX`, read unsigned (30_encoding.md R116). -/
def pinOk (p : Params) (pin : Word) : Bool := decide (pin.toNat ≤ p.pinMax)

/-- The mask `1 << pin` (30_encoding.md R116). -/
def pinBit (pin : Word) : Word := bitWord pin.toNat

/-- The direction bits to set: the pin's mask when the bit for the wanted direction is 1 (41_gpio.md R171). -/
def dirBits (p : Params) (pin dir : Word) : Word :=
  if decide (dir = 1#32) = p.dirOutIs1 then pinBit pin else 0#32

/-- `level << pin` (41_gpio.md R178). -/
def levelBits (pin level : Word) : Word := level <<< pin.toNat

/-- A one-bit result as a word (41_gpio.md R172, R183). -/
def boolWord (b : Bool) : Word := if b then 1#32 else 0#32

/-! ### SPI units -/

/-- The bits of a unit. -/
def SpiWidth.bits : SpiWidth → Nat
  | .w8 => 8
  | .w16 => 16
  | .w32 => 32

/-- The bytes of a unit, `w/8` (30_encoding.md R118). -/
def SpiWidth.bytes : SpiWidth → Nat
  | .w8 => 1
  | .w16 => 2
  | .w32 => 4

/-- `ones(w)`: also the fill value (30_encoding.md R117). -/
def widthMask : SpiWidth → Word
  | .w8 => 0xFF#32
  | .w16 => 0xFFFF#32
  | .w32 => 0xFFFFFFFF#32

/-- The low `w` bits of a word, zero-extended: a right-justified unit (30_encoding.md R106). -/
def unitOf (w : SpiWidth) (v : Word) : Word := v &&& widthMask w

/-- The address of unit `i` of width `w` in a buffer (30_encoding.md R118). -/
def unitAddress (buf : Word) (w : SpiWidth) (i : Nat) : Nat := buf.toNat + i * SpiWidth.bytes w

/-! ### SPI.CONFIG -/

/-- `(2^width - 1) << lsb`: DIV_MASK and MODE_MASK of 30_encoding.md R105. -/
def fieldMask (lsb width : Nat) : Word := onesWord width <<< lsb

/-- The field's value (10_state.md R34). -/
def fieldValue (lsb width : Nat) (w : Word) : Nat := ((w &&& fieldMask lsb width) >>> lsb).toNat

/-- `(c & ~MASK) | ((x << lsb) & MASK)` (43_spi.md R252, R253). -/
def putField (lsb width : Nat) (x c : Word) : Word :=
  (c &&& ~~~(fieldMask lsb width)) ||| ((x <<< lsb) &&& fieldMask lsb width)

/-- The unit width the configured divider binds, or none (43_spi.md R251). -/
def burstWidth (p : Params) (config : Word) : Option SpiWidth :=
  let d := fieldValue p.spiDivLsb p.spiDivW config
  if d = p.burstDivW2 then some .w16
  else if d = p.burstDivW4 then some .w32
  else none

/-! ### Buffers -/

/-- Whether `len` bytes from `a` touch a register window (20_memory.md R84). -/
def overlapsWindow (b : Bases) (a len : Nat) : Bool :=
  decide (0 < len) && b.windows.any fun w => decide (a < w.1 + w.2) && decide (w.1 < a + len)

/-- The same for a buffer that may be absent. -/
def bufferOverlaps (b : Bases) (buf : Option Word) (len : Nat) : Bool :=
  match buf with
  | none => false
  | some a => overlapsWindow b a.toNat len

/-! ### I2C addresses, trap causes, PWM channels -/

/-- An I2C target address is 7 bits (30_encoding.md R119). -/
def addr7Ok (addr7 : Word) : Bool := decide (addr7.toNat ≤ Config.addr7Max)

/-- The address byte `(addr7 << 1) | dir`, `dir` 1 for read (30_encoding.md R119). -/
def addressByte (addr7 : Word) (read : Bool) : Word := (addr7 <<< 1) ||| boolWord read

/-- The interrupt flag of a trap cause: its top bit (30_encoding.md R113, R121). -/
def causeIsIrq (cause : Word) : Bool := cause.getLsbD 31

/-- The code of a trap cause: the other bits (30_encoding.md R121). -/
def causeCode (cause : Word) : Nat := (cause.setWidth 31).toNat

/-- The cause word of interrupt `n` (60_exceptions.md R377). -/
def irqCause (n : Nat) : Word := bitWord 31 ||| BitVec.ofNat 32 n

/-- The cause word of an exception: the interrupt flag is 0 (30_encoding.md R113). -/
def exceptionCause (code : BitVec 31) : Word := code.setWidth 32

/-- A channel operand: 0 or 1, or out of range (45_timer_pwm.md R357). -/
def channelOf (ch : Word) : Option Chan :=
  if ch = 0#32 then some .c0 else if ch = 1#32 then some .c1 else none

/-- A period or duty is at most `PWM_MAXVAL` (45_timer_pwm.md R357). -/
def pwmValueOk (v : Word) : Bool := decide (v.toNat ≤ Config.pwmMaxval)

end Sys2Proof.Machine
end

