-- ==== Sys2Proof/Machine/Flags.lean ====
section
/-! DEFINITION. Status words, conditions and pending bits (10_state.md R58): SPI and I2C status, the I2C error classes, pad
levels, the GPIO and timer interrupt conditions, `mip` and which interrupt is taken. -/

namespace Sys2Proof.Machine

/-! ### SPI.STATUS -/

/-- The SPI.STATUS word: BUSY and DONE at their bits, every other bit from the draw `d` (43_spi.md R233). -/
def spiStatusWord (p : Params) (x : Spi) (d : Word) : Word :=
  setBit (setBit d p.spiBusyBit x.busy) p.spiDoneBit x.done

/-- The width a word written to SPI.CTRL starts, if it is a legal command word (30_encoding.md R103, R125). -/
def spiCommand (p : Params) (v : Word) : Option SpiWidth :=
  if v = p.spiStart8 then some .w8
  else if v = p.spiStart16 then some .w16
  else if v = p.spiStart32 then some .w32
  else none

/-! ### I2C.STATUS -/

/-- BUSY: own or ext_busy or a phase in flight (44_i2c.md R288). -/
def i2cBusy (x : I2c) : Bool := x.own || x.extBusy || x.cmd.isSome

/-- The I2C.STATUS word: five flags at their bits, every other bit from the draw `d` (44_i2c.md R288). -/
def i2cStatusWord (p : Params) (x : I2c) (d : Word) : Word :=
  setBit (setBit (setBit (setBit (setBit d p.i2cBusyBit (i2cBusy x)) p.i2cAckBit x.ack) p.i2cArbLostBit x.arbLost)
    p.i2cDoneBit x.done) p.i2cErrorBit x.error

/-- `acked(s)` (30_encoding.md R108). -/
def acked (p : Params) (s : Word) : Bool := s.getLsbD p.i2cAckBit == p.ackIs1

/-- `classify(s, check_ack)` (44_i2c.md R302): ERROR, then ARB_LOST, then NACK. -/
def classify (p : Params) (s : Word) (checkAck : Bool) : Word :=
  if s.getLsbD p.i2cErrorBit then p.errBus
  else if s.getLsbD p.i2cArbLostBit then p.errArbLost
  else if checkAck && !acked p s then p.errNack
  else Config.ok

/-- The phase a word written to I2C.CTRL commands, with the byte of I2C.DATA (44_i2c.md R282 to R287, 30_encoding.md R125). -/
def i2cCommand (p : Params) (v data : Word) : Option I2cCmd :=
  let b : Byte := data.setWidth 8
  if v = p.i2cStart then some (.start b)
  else if v = p.i2cRestart then some (.restart b)
  else if v = p.i2cWrite then some (.write b)
  else if v = p.i2cReadAck then some (.read true)
  else if v = p.i2cReadNack then some (.read false)
  else if v = p.i2cStop then some .stop
  else none

/-- The precondition of a command on `i2c.own` (44_i2c.md R294). -/
def i2cAllowed (own : Bool) : I2cCmd → Bool
  | .start _ => !own
  | .restart _ => own
  | .write _ => own
  | .read _ => own
  | .stop => true

/-! ### Pads -/

/-- The pins that are outputs: `DIR[p] = GPIO_DIR_OUT_IS_1` (41_gpio.md R166). -/
def outputPins (p : Params) (g : Gpio) : Word := if p.dirOutIs1 then g.dir else ~~~g.dir

/-- The implemented pins whose pad level is a draw: outputs without loopback (41_gpio.md R166). -/
def drawnPads (p : Params) (g : Gpio) : Word :=
  if p.loopback then 0#32 else outputPins p g &&& pinMask p

/-- The pad levels `pad[PIN_MAX:0]`, zero above; drawn pads from `d` (41_gpio.md R166). -/
def padLevels (p : Params) (g : Gpio) (d : Word) : Word :=
  maskMerge (outputPins p g) (if p.loopback then g.out else d) g.ext &&& pinMask p

/-- One event for each pin, in rising order, whose bit of `pins` is set. -/
def pinEvents (pins : Word) (e : Nat → Event) : List Event :=
  ((List.range 32).filter fun p => pins.getLsbD p).map e

/-- `PadChange` for each pin whose pad changed (41_gpio.md R167; notes/assumptions/15.md). -/
def padEvents (p : Params) (before after : Gpio) : List Event :=
  let now := padLevels p after 0#32
  let changed := (padLevels p before 0#32 ^^^ now) &&& ~~~(drawnPads p before ||| drawnPads p after)
  pinEvents changed fun pin => .padChange pin (now.getLsbD pin)

/-! ### Interrupts -/

/-- `gpio_irq` (41_gpio.md R169). -/
def gpioIrq (s : State) : Bool := (s.gpio.intPend &&& s.gpio.intEn &&& pinMask s.params) != 0#32

/-- The timer condition (45_timer_pwm.md R343). -/
def timerPending (s : State) : Bool := decide (s.timer.mtimecmp ≤ s.timer.mtime)

/-- `mip`: bits 7 and 11 from their sources, no other source (60_exceptions.md R372 to R374; notes/assumptions/18.md). -/
def mip (s : State) : Word :=
  setBit (setBit 0#32 Config.irqTimer (timerPending s)) Config.irqExternal (gpioIrq s)

/-- Interrupt `n` may be taken (60_exceptions.md R375). -/
def interruptEnabled (s : State) (n : Nat) : Bool :=
  s.csr.mstatusMIE && (s.csr.mie.getLsbD n && (mip s).getLsbD n)

/-- The interrupt that is taken before the context's next micro-step, external first (60_exceptions.md R375, R376). -/
def pendingInterrupt (s : State) : Option Nat :=
  if interruptEnabled s Config.irqExternal then some Config.irqExternal
  else if interruptEnabled s Config.irqTimer then some Config.irqTimer
  else none

end Sys2Proof.Machine
end

