-- ==== Sys2Proof/Machine/Ops.lean ====
section
/-! DEFINITION. The operations every meaning is built from (00_scope.md R7): events and draws, ending and advancing an
operation, host buffer memory, register and control-register accesses, polls and read-modify-writes, taking a trap and
returning from one. -/

namespace Sys2Proof.Machine

/-- What a step answers. -/
abbrev Result := Host.Outcome State Fault Refusal

/-- Goes on from a next state, and keeps a stop. -/
def andThen (o : Result) (f : State → Result) : Result :=
  match o with
  | .next s => f s
  | .fault r => .fault r
  | .refused r => .refused r

/-- `emit` (00_scope.md R7, 10_state.md R55). -/
def State.emit (s : State) (es : List Event) : State := { s with history := s.history ++ es }

/-! ### Draws -/

/-- The next value of `draw` (00_scope.md R7): a supplied word, or the opaque constant (notes/assumptions/5.md). -/
def Draws.head (d : Draws) : Word :=
  match d.supply with
  | w :: _ => w
  | [] => Config.draw d.used

/-- The draws left after one is taken. -/
def Draws.next (d : Draws) : Draws :=
  match d.supply with
  | _ :: ws => { d with supply := ws }
  | [] => { d with used := d.used + 1 }

/-- One draw is taken. -/
def State.takeDraw (s : State) : State := { s with draws := s.draws.next }

/-- An operand of `bits` bits, given as a 32-bit value: the value where it fits, a free one of its width where it does not (the
spec states no result there; DESIGN CHOICE, notes/assumptions/26.md). -/
def withOperand (bits : Nat) (x : Word) (k : Word → State → Result) (s : State) : Result :=
  if x.toNat < 2 ^ bits then k x s else k (s.draws.head &&& onesWord bits) s.takeDraw

/-! ### The sequencer -/

/-- The operation goes on at phase `ph` with locals `l` (10_state.md R52, R53). -/
def State.goTo (s : State) (ph : Phase) (l : Locals) : State :=
  { s with cur := { s.cur with phase := ph, loc := l } }

/-- The operation ends with a result, or none (00_scope.md R11); the context goes on with its next statement. -/
def State.finish (s : State) (res : Option Word) : State :=
  { s with cur := { s.cur with prog := s.cur.prog.tail, phase := .idle, loc := Locals.none, result := res } }

/-! ### Host buffer memory -/

/-- What a byte that nothing has written reads as (notes/assumptions/9.md). -/
def Memory.blank : Byte := 0#8

/-- The canonical form: strictly rising addresses inside the address space, no entry equal to an unlisted byte. -/
abbrev Memory.wf (m : Memory) : Prop :=
  m.Pairwise (fun a b => a.1 < b.1) ∧ ∀ c ∈ m, c.1 < Config.addressSpace ∧ c.2 ≠ Memory.blank

/-- One byte (20_memory.md R70b). -/
def Memory.read (m : Memory) (a : Nat) : Byte :=
  match m with
  | [] => Memory.blank
  | (x, b) :: rest => if x = a then b else Memory.read rest a

/-- One byte written, in canonical form. -/
def Memory.write (m : Memory) (a : Nat) (b : Byte) : Memory :=
  match m with
  | [] => if b = Memory.blank then [] else [(a, b)]
  | (x, c) :: rest =>
    if a < x then (if b = Memory.blank then (x, c) :: rest else (a, b) :: (x, c) :: rest)
    else if a = x then (if b = Memory.blank then rest else (a, b) :: rest)
    else (x, c) :: Memory.write rest a b

/-- The bytes of a unit at `a`, little-endian, zero-extended (20_memory.md R75, 30_encoding.md R118). -/
def Memory.load (m : Memory) (a : Nat) : SpiWidth → Word
  | .w8 => wordOfBytes (m.read a) 0#8 0#8 0#8
  | .w16 => wordOfBytes (m.read a) (m.read (a + 1)) 0#8 0#8
  | .w32 => wordOfBytes (m.read a) (m.read (a + 1)) (m.read (a + 2)) (m.read (a + 3))

/-- Bits `[8k+7 : 8k]` of a word (20_memory.md R75). -/
def byteOf (v : Word) (k : Nat) : Byte := v.extractLsb' (8 * k) 8

/-- The low bytes of a word stored at `a`, little-endian (20_memory.md R75). -/
def Memory.store (m : Memory) (a : Nat) (w : SpiWidth) (v : Word) : Memory :=
  match w with
  | .w8 => m.write a (byteOf v 0)
  | .w16 => (m.write a (byteOf v 0)).write (a + 1) (byteOf v 1)
  | .w32 => (((m.write a (byteOf v 0)).write (a + 1) (byteOf v 1)).write (a + 2) (byteOf v 2)).write (a + 3) (byteOf v 3)

/-- `MemRead` (00_scope.md R7): aligned (20_memory.md R76) and inside the address space, then `k` with the value. -/
def memRead (a : Nat) (w : SpiWidth) (s : State) (k : Word → Result) : Result :=
  if a % SpiWidth.bytes w ≠ 0 then .refused .misalignedBuffer
  else if Config.addressSpace < a + SpiWidth.bytes w then .fault (.noSuchAddress a)
  else k (s.mem.load a w)

/-- `MemWrite` (00_scope.md R7), likewise. -/
def memWrite (a : Nat) (w : SpiWidth) (v : Word) (s : State) : Result :=
  if a % SpiWidth.bytes w ≠ 0 then .refused .misalignedBuffer
  else if Config.addressSpace < a + SpiWidth.bytes w then .fault (.noSuchAddress a)
  else .next { s with mem := s.mem.store a w v }

/-! ### Registers -/

/-- The registers of a PWM channel (45_timer_pwm.md R345). -/
def State.pwm (s : State) : Chan → Pwm
  | .c0 => s.pwm0
  | .c1 => s.pwm1

/-- The state with a PWM channel's registers replaced. -/
def State.setPwm (s : State) (c : Chan) (x : Pwm) : State :=
  match c with
  | .c0 => { s with pwm0 := x }
  | .c1 => { s with pwm1 := x }

/-- The value a read of a register returns, with `d` the draw it may need: the read half of the rules listed in
40_register_access.md R144. -/
def readValue (s : State) (d : Word) : Reg → Word
  | .gpioDir => maskMerge (pinMask s.params) s.gpio.dir d
  | .gpioOut => maskMerge (pinMask s.params) s.gpio.out d
  | .gpioIn => maskMerge (pinMask s.params) (padLevels s.params s.gpio d) d
  | .gpioIntEn => maskMerge (pinMask s.params) s.gpio.intEn d
  | .gpioIntPend => maskMerge (pinMask s.params) s.gpio.intPend d
  | .gpioIntClr => d
  | .mtimeLo => s.timer.mtime.extractLsb' 0 32
  | .mtimeHi => s.timer.mtime.extractLsb' 32 32
  | .mtimecmpLo => s.timer.mtimecmp.extractLsb' 0 32
  | .mtimecmpHi => s.timer.mtimecmp.extractLsb' 32 32
  | .pwmCtrl c => (s.pwm c).ctrl
  | .pwmPeriod c => (s.pwm c).period.setWidth 32
  | .pwmDuty c => (s.pwm c).duty.setWidth 32
  | .pwmCounter _ => (d.setWidth 16).setWidth 32
  | .i2cCtrl => d
  | .i2cStatus => i2cStatusWord s.params s.i2c d
  | .i2cData => s.i2c.data
  | .i2cPrescale => s.i2c.prescale
  | .spiCtrl => d
  | .spiStatus => spiStatusWord s.params s.spi d
  | .spiTxdata => d
  | .spiRxdata => s.spi.rxdata
  | .spiConfig => s.spi.config

/-- `RegRead` (40_register_access.md R140): the value, the event, no device state changed (20_memory.md R77). Every read takes
one draw, whether its rule uses it or not (notes/assumptions/33.md). -/
def regRead (r : Reg) (s : State) : Word × State :=
  let v := readValue s s.draws.head r
  (v, (s.emit [.regRd r v]).takeDraw)

/-- A write of GPIO.DIR or GPIO.OUT: the registers replaced, the pads that changed logged (41_gpio.md R160, R161, R166). -/
def State.putGpio (s : State) (g : Gpio) : State :=
  { s with gpio := g, history := s.history ++ padEvents s.params s.gpio g }

/-- A write of SPI.CTRL (43_spi.md R231, R237, 30_encoding.md R125). -/
def writeSpiCtrl (v : Word) (s : State) : Result :=
  if s.spi.inflight.isSome then .fault (.spiOverrun .spiCtrl)
  else match spiCommand s.params v with
    | none => .refused .illegalCommand
    | some w =>
      .next { s with spi := { s.spi with
        inflight := some { width := w, value := unitOf w s.spi.txdata }, done := false, busy := true } }

/-- A write of I2C.CTRL (44_i2c.md R281, R292, R294, 30_encoding.md R125). ACK becomes a draw. -/
def writeI2cCtrl (v : Word) (s : State) : Result :=
  if s.i2c.cmd.isSome then .fault (.i2cOverrun .i2cCtrl)
  else match i2cCommand s.params v s.i2c.data with
    | none => .refused .illegalCommand
    | some c =>
      if i2cAllowed s.i2c.own c then
        .next { s with
          i2c := { s.i2c with
            done := false, arbLost := false, error := false, ack := s.draws.head.getLsbD 0, cmd := some c }
          draws := s.draws.next }
      else .refused .illegalPhase

/-- The effect of a register write: the write half of the rules listed in 40_register_access.md R144. A write to a read-only
register is refused (R141). -/
def writeEffect (r : Reg) (v : Word) (s : State) : Result :=
  match r with
  | .gpioDir => .next (s.putGpio { s.gpio with dir := maskMerge (pinMask s.params) v s.gpio.dir })
  | .gpioOut => .next (s.putGpio { s.gpio with out := maskMerge (pinMask s.params) v s.gpio.out })
  | .gpioIn => .refused .badAccess
  | .gpioIntEn => .next { s with gpio := { s.gpio with intEn := maskMerge (pinMask s.params) v s.gpio.intEn } }
  | .gpioIntPend => .refused .badAccess
  | .gpioIntClr => .next { s with gpio := { s.gpio with intPend := s.gpio.intPend &&& ~~~(v &&& pinMask s.params) } }
  | .mtimeLo => .next { s with timer := { s.timer with mtime := s.timer.mtime.extractLsb' 32 32 ++ v } }
  | .mtimeHi => .next { s with timer := { s.timer with mtime := v ++ s.timer.mtime.extractLsb' 0 32 } }
  | .mtimecmpLo => .next { s with timer := { s.timer with mtimecmp := s.timer.mtimecmp.extractLsb' 32 32 ++ v } }
  | .mtimecmpHi => .next { s with timer := { s.timer with mtimecmp := v ++ s.timer.mtimecmp.extractLsb' 0 32 } }
  | .pwmCtrl c => .next (s.setPwm c { s.pwm c with ctrl := v })
  | .pwmPeriod c => .next (s.setPwm c { s.pwm c with period := v.setWidth 16 })
  | .pwmDuty c => .next (s.setPwm c { s.pwm c with duty := v.setWidth 16 })
  | .pwmCounter _ => .refused .badAccess
  | .i2cCtrl => writeI2cCtrl v s
  | .i2cStatus => .refused .badAccess
  | .i2cData =>
    if s.i2c.cmd.isSome then .fault (.i2cOverrun .i2cData)
    else .next { s with i2c := { s.i2c with data := (v.setWidth 8).setWidth 32 } }
  | .i2cPrescale =>
    if s.i2c.cmd.isSome then .refused .illegalPhase else .next { s with i2c := { s.i2c with prescale := v } }
  | .spiCtrl => writeSpiCtrl v s
  | .spiStatus => .refused .badAccess
  | .spiTxdata =>
    if s.spi.inflight.isSome then .fault (.spiOverrun .spiTxdata) else .next { s with spi := { s.spi with txdata := v } }
  | .spiRxdata => .refused .badAccess
  | .spiConfig =>
    if s.spi.inflight.isSome then .fault (.spiOverrun .spiConfig) else .next { s with spi := { s.spi with config := v } }

/-- `RegWrite` (40_register_access.md R141): the event, and the effect at once. The events of the effect (`PadChange`) follow the
event of the write (DESIGN CHOICE, notes/assumptions/15.md). -/
def regWrite (r : Reg) (v : Word) (s : State) : Result := writeEffect r v (s.emit [.regWr r v])

/-- A statement that is one register read: `RD` (40_register_access.md R140). -/
def readStatement (r : Reg) (s : State) : Result :=
  .next ((regRead r s).2.finish (some (regRead r s).1))

/-- A statement that is one register read whose value `f` turns into the result. -/
def readThrough (r : Reg) (f : Word → Word) (s : State) : Result :=
  .next ((regRead r s).2.finish (some (f (regRead r s).1)))

/-- A statement that is one register write: `WR` (40_register_access.md R141), with the result `res`. -/
def writeStatement (r : Reg) (v : Word) (res : Option Word) (s : State) : Result :=
  andThen (regWrite r v s) fun t => .next (t.finish res)

/-- An operation that ends at once with a result and no access (30_encoding.md R123). -/
def returnNow (res : Option Word) (s : State) : Result := .next (s.finish res)

/-- One turn of a poll (40_register_access.md R142): `hit` with the status word when the bit is as wanted, else the poll
stays where it is. -/
def poll (r : Reg) (bit : Nat) (want : Bool) (hit : Word → State → State) (s : State) : Result :=
  .next (if (regRead r s).1.getLsbD bit = want then hit (regRead r s).1 (regRead r s).2 else (regRead r s).2)

/-- A read-modify-write of one register (40_register_access.md R143), two micro-steps, then the result `res`. -/
def rmw (r : Reg) (f : Word → Word) (res : Option Word) (s : State) : Result :=
  match s.cur.phase with
  | .idle => .next ((regRead r s).2.goTo .rmwWrite { Locals.none with v := (regRead r s).1 })
  | .rmwWrite => writeStatement r (f s.cur.loc.v) res s
  | _ => .fault .lostSequence

/-- The same, made from an operand of `bits` bits, which the write looks at. -/
def rmwOperand (r : Reg) (bits : Nat) (x : Word) (f : Word → Word → Word) (res : Option Word) (s : State) : Result :=
  match s.cur.phase with
  | .rmwWrite => withOperand bits x (fun y => rmw r (f y) res) s
  | _ => rmw r (f x) res s

/-! ### Host control registers -/

/-- The control registers by name (10_state.md R44). -/
inductive CsrName where
  | mstatus | mie | mip | mtvec | mepc | mcause
  deriving DecidableEq, Repr

/-- The value of a control register, the bits of `mstatus` the block does not name from the draw `d`
(notes/assumptions/20.md). The word of `mepc` is a free function of the whole resume point, its micro-step among it, so that
equal resume points read as equal words and nothing else is said of them (DESIGN CHOICE, notes/assumptions/19.md; no
operation reads `mepc`). -/
def csrValue (s : State) (d : Word) : CsrName → Word
  | .mstatus => setBit (setBit d Config.mieBit s.csr.mstatusMIE) Config.mpieBit s.csr.mstatusMPIE
  | .mie => s.csr.mie
  | .mip => mip s
  | .mtvec => s.csr.mtvec
  | .mepc => Config.resumeAddress s.csr.mepc
  | .mcause => s.csr.mcause

/-- `CsrRead` (40_register_access.md R146). -/
def csrRead (c : CsrName) (s : State) : Word × State := (csrValue s s.draws.head c, s.takeDraw)

/-- `CsrWrite` (40_register_access.md R146). `mip` is read-only to the block and nothing but trap entry writes `mepc`
(10_state.md R44, 60_exceptions.md R378): a write to either changes nothing, and no operation makes one. -/
def csrWrite (c : CsrName) (v : Word) (s : State) : State :=
  match c with
  | .mstatus =>
    { s with csr := { s.csr with mstatusMIE := v.getLsbD Config.mieBit, mstatusMPIE := v.getLsbD Config.mpieBit } }
  | .mie => { s with csr := { s.csr with mie := v } }
  | .mip => s
  | .mtvec => { s with csr := { s.csr with mtvec := v } }
  | .mepc => s
  | .mcause => { s with csr := { s.csr with mcause := v } }

/-- `CsrSet` (40_register_access.md R146): read, write, then a return micro-step, before which an interrupt it enables is
taken (42_irq_dispatcher.md R204; notes/assumptions/13.md). -/
def csrSet (c : CsrName) (mask : Word) (s : State) : Result :=
  match s.cur.phase with
  | .idle => .next ((csrRead c s).2.goTo .csrWrite { Locals.none with v := (csrRead c s).1 })
  | .csrWrite => .next ((csrWrite c (s.cur.loc.v ||| mask) s).goTo .ret Locals.none)
  | .ret => returnNow none s
  | _ => .fault .lostSequence

/-- `CsrClear` (40_register_access.md R146): read, then write. -/
def csrClear (c : CsrName) (mask : Word) (s : State) : Result :=
  match s.cur.phase with
  | .idle => .next ((csrRead c s).2.goTo .csrWrite { Locals.none with v := (csrRead c s).1 })
  | .csrWrite => .next ((csrWrite c (s.cur.loc.v &&& ~~~mask) s).finish none)
  | _ => .fault .lostSequence

/-! ### Traps -/

/-- The entry stub's context at an entry address (60_exceptions.md R378; notes/assumptions/21.md). -/
def stubFrame (entry : Word) : Frame :=
  { kind := .stub entry, prog := [], phase := .stubEntry, loc := Locals.none, result := none, raising := none }

/-- The resume point of the running context: its next micro-step (60_exceptions.md R377). -/
def resumePoint (s : State) : ResumePoint :=
  { depth := s.susp.length, left := s.cur.prog.length, phase := s.cur.phase }

/-- Trap entry, one indivisible step (60_exceptions.md R377): `mepc`, `mcause`, MPIE and MIE, `trap.depth`, the event, and
control to `mtvec`. Before IRQ.INIT it faults; inside a trap it is refused (R380). -/
def takeTrap (cause : Word) (s : State) : Result :=
  if s.disp.state = .uninitialized then .fault (.trapUninitialized cause)
  else if 1 ≤ s.trapDepth then .refused .nestedTrap
  else .next { s with
    csr := { s.csr with
      mepc := resumePoint s, mcause := cause, mstatusMPIE := s.csr.mstatusMIE, mstatusMIE := false }
    trapDepth := s.trapDepth + 1
    history := s.history ++ [.trapTaken cause]
    susp := s.cur :: s.susp
    cur := stubFrame s.csr.mtvec }

/-- Control goes to a suspended context (60_exceptions.md R379): the one that has `depth` contexts below it. -/
def resumeAt (depth : Nat) (s : State) : Result :=
  match s.susp.drop (s.susp.length - (depth + 1)) with
  | f :: fs => .next { s with cur := f, susp := fs }
  | [] => .fault .lostSequence

/-- Trap return, one indivisible step (60_exceptions.md R379). -/
def trapReturn (s : State) : Result :=
  resumeAt s.csr.mepc.depth
    { s with
      csr := { s.csr with mstatusMIE := s.csr.mstatusMPIE, mstatusMPIE := true }
      trapDepth := s.trapDepth - 1 }

/-- The entry stub reads `mcause` and runs IRQ.DISPATCH with it (60_exceptions.md R378). -/
def stubEntry (s : State) : Result :=
  let c := (csrRead .mcause s).1
  .next { (csrRead .mcause s).2 with
    cur := { s.cur with prog := [.stmt .op (opBytes 0x32#8 c 0#32 0#32 0#32)], phase := .idle, loc := Locals.none } }

/-! ### Handlers -/

/-- The body of a handler: the parameter's, or nothing to run (42_irq_dispatcher.md R203; notes/assumptions/23.md). -/
def handlerBody (p : Params) (h : Word) : List Request :=
  match p.handlers.find? fun x => x.1 == h with
  | some x => x.2
  | none => []

/-- `call h` (42_irq_dispatcher.md R202, R203): the calling operation waits at `irqReturn` and the handler's context runs. -/
def callHandler (n : Nat) (h : Word) (s : State) : State :=
  { s with
    history := s.history ++ [.handlerCall n h]
    susp := { s.cur with phase := .irqReturn, loc := { Locals.none with idx := n } } :: s.susp
    cur :=
      { kind := .handler n h, prog := handlerBody s.params h, phase := .idle, loc := Locals.none, result := none,
        raising := none } }

/-- A handler with nothing left to run ends: control returns to its caller (42_irq_dispatcher.md R203). -/
def handlerEnd (s : State) : Result :=
  match s.susp with
  | f :: fs => .next { s with cur := f, susp := fs }
  | [] => .fault .lostSequence

end Sys2Proof.Machine
end

