-- ==== Sys2Proof/Machine/Agents.lean ====
section
/-! DEFINITION. The agents beside the host (00_scope.md R8 c to f): the SPI and I2C engines, the GPIO edge detector, the
environment. A move that is not enabled changes nothing (notes/assumptions/17.md). -/

namespace Sys2Proof.Machine

/-- The SPI engine completes the unit in flight with the peripheral's answer (43_spi.md R236, R238). -/
def spiEngine (answer : Word) (s : State) : State :=
  match s.spi.inflight with
  | some u =>
    { s with
      spi := { s.spi with rxdata := unitOf u.width answer, inflight := none, busy := false, done := true }
      history := s.history ++ [.spiUnit u.width u.value (unitOf u.width answer)] }
  | none => s

/-- One row of the table of 44_i2c.md R290: the acknowledge flag (`none` is a draw), ARB_LOST, ERROR, what becomes of
`i2c.own` and I2C.DATA, and the events. -/
structure I2cRow where
  ack : Option Bool
  arbLost : Bool
  error : Bool
  own : Option Bool
  data : Option Byte
  events : List Event
  deriving DecidableEq, Repr

/-- The address event of an address byte (44_i2c.md R290: `a = b[7:1]`, `d = b[0]`). -/
def addrEvent (b : Byte) (acked : Bool) : Event := .i2cAddr (b.extractLsb' 1 7) (b.getLsbD 0) acked

/-- The row of an outcome that ends a phase with an acknowledge bit. -/
def ackRow (p : Params) (acked : Bool) (own : Option Bool) (events : List Event) : I2cRow :=
  { ack := some (acked == p.ackIs1), arbLost := false, error := false, own := own, data := none, events := events }

/-- The row of an arbitration loss. -/
def arbLostRow : I2cRow :=
  { ack := none, arbLost := true, error := false, own := some false, data := none, events := [.i2cArbLost] }

/-- The row of a bus error. -/
def busErrorRow (own : Option Bool) : I2cRow :=
  { ack := none, arbLost := false, error := true, own := own, data := none, events := [.i2cBusError] }

/-- The table of 44_i2c.md R290, row by row; an outcome it does not list for a command is not allowed. -/
def i2cTable (p : Params) (own : Bool) : I2cCmd → I2cOutcome → Option I2cRow
  | .start b, .acked => some (ackRow p true (some true) [.i2cStart, addrEvent b true])
  | .start b, .nacked => some (ackRow p false (some true) [.i2cStart, addrEvent b false])
  | .start _, .arbLost => some arbLostRow
  | .start _, .busError => some (busErrorRow (some true))
  | .restart b, .acked => some (ackRow p true none [.i2cRestart, addrEvent b true])
  | .restart b, .nacked => some (ackRow p false none [.i2cRestart, addrEvent b false])
  | .restart _, .arbLost => some arbLostRow
  | .restart _, .busError => some (busErrorRow none)
  | .write b, .acked => some (ackRow p true none [.i2cWrite b true])
  | .write b, .nacked => some (ackRow p false none [.i2cWrite b false])
  | .write _, .arbLost => some arbLostRow
  | .write _, .busError => some (busErrorRow none)
  | .read k, .byte v =>
    some { ack := none, arbLost := false, error := false, own := none, data := some v, events := [.i2cRead v k] }
  | .read _, .arbLost => some arbLostRow
  | .read _, .busError => some (busErrorRow none)
  | .stop, .ok =>
    if own then
      some { ack := none, arbLost := false, error := false, own := some false, data := none, events := [.i2cStop] }
    else some { ack := none, arbLost := false, error := false, own := none, data := none, events := [] }
  | .stop, .busError => if own then some (busErrorRow (some false)) else none
  | _, _ => none

/-- The I2C registers after a phase ended with a row, `d` the draw of ACK; owning the bus ends another controller's hold
(44_i2c.md R290, R291; notes/assumptions/16.md). -/
def I2c.complete (x : I2c) (row : I2cRow) (d : Word) : I2c :=
  { x with
    ack := row.ack.getD (d.getLsbD 0)
    arbLost := row.arbLost
    error := row.error
    done := true
    cmd := none
    own := row.own.getD x.own
    extBusy := x.extBusy && !(row.own.getD x.own)
    data := (row.data.map fun v => v.setWidth 32).getD x.data }

/-- The I2C engine completes the phase in flight with an outcome (44_i2c.md R290). -/
def i2cEngine (o : I2cOutcome) (s : State) : State :=
  match s.i2c.cmd with
  | some c =>
    match i2cTable s.params s.i2c.own c o with
    | some row =>
      { s with
        i2c := s.i2c.complete row s.draws.head
        history := s.history ++ row.events
        draws := s.draws.next }
    | none => s
  | none => s

/-- The pins whose level rose since the last sample (41_gpio.md R168), `d` the draw of drawn pads. -/
def risingPins (p : Params) (g : Gpio) (d : Word) : Word := padLevels p g d &&& ~~~g.inPrev

/-- The rising pins that set their pending flag (41_gpio.md R168): all, or with `GPIO_PEND_GATED` the enabled ones. -/
def latchedPins (p : Params) (g : Gpio) (d : Word) : Word :=
  if p.pendGated then risingPins p g d &&& g.intEn else risingPins p g d

/-- The edge detector samples the pads (41_gpio.md R168). -/
def edgeDetector (s : State) : State :=
  let d := s.draws.head
  { s with
    gpio := { s.gpio with
      intPend := s.gpio.intPend ||| latchedPins s.params s.gpio d, inPrev := padLevels s.params s.gpio d }
    history := s.history ++ pinEvents (risingPins s.params s.gpio d) .edge
    draws := s.draws.next }

/-- The environment sets the external pad levels (41_gpio.md R167). -/
def padsChange (ext : Word) (s : State) : State := s.putGpio { s.gpio with ext := ext }

/-- Another controller takes or frees the bus, while this one does not own it (44_i2c.md R291). -/
def extBusyChange (b : Bool) (s : State) : State :=
  if s.i2c.own then s else { s with i2c := { s.i2c with extBusy := b } }

/-- The timer advances by `k`, modulo 2^64 (45_timer_pwm.md R344). -/
def timerAdvance (k : BitVec 64) (s : State) : State :=
  { s with timer := { s.timer with mtime := s.timer.mtime + k } }

/-- The running context's next micro-step raises an exception (60_exceptions.md R371; notes/assumptions/22.md). -/
def raiseException (code : BitVec 31) (s : State) : State :=
  { s with cur := { s.cur with raising := some code } }

/-- What a move of an agent other than the host does. -/
def deviceMove (m : Move) (s : State) : State :=
  match m with
  | .host => s
  | .spi answer => spiEngine answer s
  | .i2c o => i2cEngine o s
  | .detect => edgeDetector s
  | .pads ext => padsChange ext s
  | .extBusy b => extBusyChange b s
  | .timer k => timerAdvance k s
  | .raise code => raiseException code s

end Sys2Proof.Machine
end

