-- ==== Sys2Proof/Machine/Gpio.lean ====
section
/-! DEFINITION. GPIO register accesses and operations (41_gpio.md). -/

namespace Sys2Proof.Machine

/-! ### Register accesses -/

/-- `RD GPIO.DIR` (41_gpio.md R160). -/
def execRdGpioDir (s : State) : Result := readStatement .gpioDir s

/-- `WR GPIO.DIR` (41_gpio.md R160). -/
def execWrGpioDir (v : Word) (s : State) : Result := writeStatement .gpioDir v none s

/-- `RD GPIO.OUT` (41_gpio.md R161). -/
def execRdGpioOut (s : State) : Result := readStatement .gpioOut s

/-- `WR GPIO.OUT` (41_gpio.md R161). -/
def execWrGpioOut (v : Word) (s : State) : Result := writeStatement .gpioOut v none s

/-- `RD GPIO.IN` (41_gpio.md R162). -/
def execRdGpioIn (s : State) : Result := readStatement .gpioIn s

/-- `RD GPIO.INT_EN` (41_gpio.md R163). -/
def execRdGpioIntEn (s : State) : Result := readStatement .gpioIntEn s

/-- `WR GPIO.INT_EN` (41_gpio.md R163). -/
def execWrGpioIntEn (v : Word) (s : State) : Result := writeStatement .gpioIntEn v none s

/-- `RD GPIO.INT_PEND` (41_gpio.md R164). -/
def execRdGpioIntPend (s : State) : Result := readStatement .gpioIntPend s

/-- `RD GPIO.INT_CLR` (41_gpio.md R165). -/
def execRdGpioIntClr (s : State) : Result := readStatement .gpioIntClr s

/-- `WR GPIO.INT_CLR` (41_gpio.md R165). -/
def execWrGpioIntClr (v : Word) (s : State) : Result := writeStatement .gpioIntClr v none s

/-! ### Operations -/

/-- Pin validation (41_gpio.md R170): out of range returns `ERROR` with no access. -/
def pinOp (pin : Word) (body : State → Result) (s : State) : Result :=
  if pinOk s.params pin then body s else returnNow (some Config.error) s

/-- `GPIO.SET_DIR` (41_gpio.md R171): `dir` is one bit. -/
def execGpioSetDir (pin dir : Word) (s : State) : Result :=
  pinOp pin (rmwOperand .gpioDir 1 dir (fun b v => (v &&& ~~~(pinBit pin)) ||| dirBits s.params pin b) (some Config.ok)) s

/-- `GPIO.GET_DIR` (41_gpio.md R172). -/
def execGpioGetDir (pin : Word) (s : State) : Result :=
  pinOp pin (readThrough .gpioDir fun v => boolWord (v.getLsbD pin.toNat == s.params.dirOutIs1)) s

/-- `GPIO.SET_DIR_MASK` (41_gpio.md R173). -/
def execGpioSetDirMask (mask : Word) (s : State) : Result := writeStatement .gpioDir mask none s

/-- `GPIO.GET_DIR_MASK` (41_gpio.md R174). -/
def execGpioGetDirMask (s : State) : Result := readStatement .gpioDir s

/-- `GPIO.SET_PIN` (41_gpio.md R175). -/
def execGpioSetPin (pin : Word) (s : State) : Result :=
  pinOp pin (rmw .gpioOut (fun v => v ||| pinBit pin) (some Config.ok)) s

/-- `GPIO.CLEAR_PIN` (41_gpio.md R176). -/
def execGpioClearPin (pin : Word) (s : State) : Result :=
  pinOp pin (rmw .gpioOut (fun v => v &&& ~~~(pinBit pin)) (some Config.ok)) s

/-- `GPIO.TOGGLE_PIN` (41_gpio.md R177). -/
def execGpioTogglePin (pin : Word) (s : State) : Result :=
  pinOp pin (rmw .gpioOut (fun v => v ^^^ pinBit pin) (some Config.ok)) s

/-- `GPIO.WRITE_PIN` (41_gpio.md R178): `level` is one bit. -/
def execGpioWritePin (pin level : Word) (s : State) : Result :=
  pinOp pin (rmwOperand .gpioOut 1 level (fun b v => (v &&& ~~~(pinBit pin)) ||| levelBits pin b) (some Config.ok)) s

/-- `GPIO.WRITE` (41_gpio.md R179). -/
def execGpioWrite (mask : Word) (s : State) : Result := writeStatement .gpioOut mask none s

/-- `GPIO.READ_PIN` (41_gpio.md R183). -/
def execGpioReadPin (pin : Word) (s : State) : Result :=
  pinOp pin (readThrough .gpioIn fun v => boolWord (v.getLsbD pin.toNat)) s

/-- `GPIO.READ` (41_gpio.md R184). -/
def execGpioRead (s : State) : Result := readStatement .gpioIn s

/-- `GPIO.INT_ENABLE` (41_gpio.md R185). -/
def execGpioIntEnable (pin : Word) (s : State) : Result :=
  pinOp pin (rmw .gpioIntEn (fun v => v ||| pinBit pin) (some Config.ok)) s

/-- `GPIO.INT_DISABLE` (41_gpio.md R186). -/
def execGpioIntDisable (pin : Word) (s : State) : Result :=
  pinOp pin (rmw .gpioIntEn (fun v => v &&& ~~~(pinBit pin)) (some Config.ok)) s

/-- `GPIO.INT_PENDING` (41_gpio.md R187). -/
def execGpioIntPending (s : State) : Result := readStatement .gpioIntPend s

/-- `GPIO.INT_CLEAR` (41_gpio.md R188): one write, no read. -/
def execGpioIntClear (pin : Word) (s : State) : Result :=
  pinOp pin (writeStatement .gpioIntClr (pinBit pin) (some Config.ok)) s

/-- `GPIO.SET_ALL` (41_gpio.md R180). -/
def execGpioSetAll (s : State) : Result := writeStatement .gpioOut 0xFFFFFFFF#32 none s

/-- `GPIO.CLEAR_ALL` (41_gpio.md R181). -/
def execGpioClearAll (s : State) : Result := writeStatement .gpioOut 0#32 none s

/-- `GPIO.TOGGLE_ALL` (41_gpio.md R182). -/
def execGpioToggleAll (s : State) : Result := rmw .gpioOut (fun v => ~~~v) none s

end Sys2Proof.Machine
end

