-- ==== Sys2Proof/Machine/I2c.lean ====
section
/-! DEFINITION. I2C register accesses, command words and operations (44_i2c.md). -/

namespace Sys2Proof.Machine

/-! ### Register accesses and command words -/

/-- `RD I2C.CTRL` (44_i2c.md R293). -/
def execRdI2cCtrl (s : State) : Result := readStatement .i2cCtrl s

/-- `WR I2C.CTRL` (44_i2c.md R281). -/
def execWrI2cCtrl (v : Word) (s : State) : Result := writeStatement .i2cCtrl v none s

/-- `RD I2C.STATUS` (44_i2c.md R288). -/
def execRdI2cStatus (s : State) : Result := readStatement .i2cStatus s

/-- `RD I2C.DATA` (44_i2c.md R280). -/
def execRdI2cData (s : State) : Result := readStatement .i2cData s

/-- `WR I2C.DATA` (44_i2c.md R280). -/
def execWrI2cData (v : Word) (s : State) : Result := writeStatement .i2cData v none s

/-- `RD I2C.PRESCALE` (44_i2c.md R289). -/
def execRdI2cPrescale (s : State) : Result := readStatement .i2cPrescale s

/-- `WR I2C.PRESCALE` (44_i2c.md R289). -/
def execWrI2cPrescale (v : Word) (s : State) : Result := writeStatement .i2cPrescale v none s

/-- `I2C.START`, the command word written to I2C.CTRL (44_i2c.md R282). -/
def execI2cStart (s : State) : Result := writeStatement .i2cCtrl s.params.i2cStart none s

/-- `I2C.RESTART`, the command word written to I2C.CTRL (44_i2c.md R283). -/
def execI2cRestart (s : State) : Result := writeStatement .i2cCtrl s.params.i2cRestart none s

/-- `I2C.WRITE`, the command word written to I2C.CTRL (44_i2c.md R284). -/
def execI2cWrite (s : State) : Result := writeStatement .i2cCtrl s.params.i2cWrite none s

/-- `I2C.READ_ACK`, the command word written to I2C.CTRL (44_i2c.md R285). -/
def execI2cReadAck (s : State) : Result := writeStatement .i2cCtrl s.params.i2cReadAck none s

/-- `I2C.READ_NACK`, the command word written to I2C.CTRL (44_i2c.md R286). -/
def execI2cReadNack (s : State) : Result := writeStatement .i2cCtrl s.params.i2cReadNack none s

/-- `I2C.STOP`, the command word written to I2C.CTRL (44_i2c.md R287). -/
def execI2cStop (s : State) : Result := writeStatement .i2cCtrl s.params.i2cStop none s

/-! ### Helper sequences -/

/-- The phase `seq` of a state of the protocol machine at a micro-step. -/
def State.toI2c (s : State) (st : I2cState) (pos : I2cPos) (l : Locals) : State := s.goTo (.i2c st pos) l

/-- `wait_idle()` (44_i2c.md R300): one turn, then `k` when BUSY reads 0. -/
def waitIdle (k : State → State) (s : State) : Result :=
  poll .i2cStatus s.params.i2cBusyBit false (fun _ t => k t) s

/-- `wait_done()` and `classify` (44_i2c.md R301, R302): one turn; when DONE reads 1, `k` on `OK`, else `bad` with the code.
The word that showed DONE is the one classified. -/
def waitDone (checkAck : Bool) (bad : Word → State → State) (k : State → State) (s : State) : Result :=
  poll .i2cStatus s.params.i2cDoneBit true (fun v t =>
    if classify t.params v checkAck = Config.ok then k t else bad (classify t.params v checkAck) t) s

/-- An error outcome leaves for the abort path with its code (44_i2c.md R303, R315). -/
def toAbort (code : Word) (s : State) : State := s.toI2c .stop .abort { s.cur.loc with code := code }

/-- `abort(code)` (44_i2c.md R303): STOP is commanded; then the code is returned, after a `wait_idle()` only with
`I2C_ABORT_WAITS`. -/
def abortStep (done : Word → State → State) (s : State) : Result :=
  andThen (regWrite .i2cCtrl s.params.i2cStop s) fun t =>
    .next (if t.params.abortWaits then t.toI2c .stop .abortIdle t.cur.loc else done t.cur.loc.code t)

/-- A register write of an I2C operation, then its next micro-step. -/
def i2cPut (r : Reg) (v : Word) (st : I2cState) (pos : I2cPos) (s : State) : Result :=
  andThen (regWrite r v s) fun t => .next (t.toI2c st pos t.cur.loc)

/-- A STOP is commanded next (44_i2c.md R315). -/
def toStop (s : State) : State := s.toI2c .stop .putStop s.cur.loc

/-! ### The simple transaction -/

/-- The arguments of `simple` (44_i2c.md R304): direction, address, byte count, where the bytes are (`none` is the local byte
`tmp` of R312), and the one-bit operand that says whether the last byte read is answered with NACK. -/
structure I2cJob where
  read : Bool
  addr7 : Word
  count : Nat
  buf : Option Word
  nackLast : Word
  deriving DecidableEq, Repr

/-- The buffer address of byte `i`. -/
def byteAddress (buf : Word) (i : Nat) : Nat := buf.toNat + i

/-- The first micro-step of data byte `i`, or STOP when none remains (44_i2c.md R304, R315). -/
def nextByte (j : I2cJob) (i : Nat) (s : State) : State :=
  if i < j.count then
    s.toI2c .data (if j.read then .putCmd else if j.buf.isSome then .load else .putData) { s.cur.loc with idx := i }
  else toStop s

/-- The command word of data byte `i` (44_i2c.md R304): WRITE, or READ answered with ACK unless it is the last and
`nack_last` is 1. -/
def dataCommand (p : Params) (j : I2cJob) (nackLast : Word) (i : Nat) : Word :=
  if j.read then (if i + 1 = j.count ∧ nackLast = 1#32 then p.i2cReadNack else p.i2cReadAck) else p.i2cWrite

/-- Data byte `i` is commanded (44_i2c.md R304). -/
def putDataCommand (j : I2cJob) (s : State) : Result :=
  withOperand 1 j.nackLast (fun k t => i2cPut .i2cCtrl (dataCommand t.params j k t.cur.loc.idx) .data .waitDone t) s

/-- `src(i)`: a byte is loaded from the buffer (44_i2c.md R304). -/
def loadByte (j : I2cJob) (s : State) : Result :=
  match j.buf with
  | some a =>
    memRead (byteAddress a s.cur.loc.idx) .w8 s fun v =>
      .next (s.toI2c .data .putData { s.cur.loc with byte := v.setWidth 8 })
  | none => .fault .lostSequence

/-- A byte has been received (44_i2c.md R304): it goes to the buffer next, or stays the local `tmp`. -/
def byteReceived (j : I2cJob) (v : Word) (s : State) : State :=
  match j.buf with
  | some _ => s.toI2c .data .store { s.cur.loc with byte := v.setWidth 8 }
  | none => nextByte j (s.cur.loc.idx + 1) (s.toI2c .data .getData { s.cur.loc with byte := v.setWidth 8 })

/-- `dst(i, v)`: the received byte is stored in the buffer (44_i2c.md R304). -/
def storeByte (j : I2cJob) (s : State) : Result :=
  match j.buf with
  | some a =>
    andThen (memWrite (byteAddress a s.cur.loc.idx) .w8 (s.cur.loc.byte.setWidth 32) s) fun t =>
      .next (nextByte j (t.cur.loc.idx + 1) t)
  | none => .fault .lostSequence

/-- The micro-steps of `simple` after its first (44_i2c.md R304, R315); `done` takes its result. -/
def simpleSteps (j : I2cJob) (done : Word → State → State) (st : I2cState) (pos : I2cPos) (s : State) : Result :=
  match st, pos with
  | .idle, .waitIdle => waitIdle (fun t => t.toI2c .idle .addrData t.cur.loc) s
  | .idle, .addrData => i2cPut .i2cData (addressByte j.addr7 j.read) .idle .addrCtrl s
  | .idle, .addrCtrl => i2cPut .i2cCtrl s.params.i2cStart .addrSent .waitDone s
  | .addrSent, .waitDone => waitDone true toAbort (nextByte j 0) s
  | .data, .load => loadByte j s
  | .data, .putData => i2cPut .i2cData (s.cur.loc.byte.setWidth 32) .data .putCmd s
  | .data, .putCmd => putDataCommand j s
  | .data, .waitDone =>
    waitDone (!j.read) toAbort
      (fun t => if j.read then t.toI2c .data .getData t.cur.loc else nextByte j (t.cur.loc.idx + 1) t) s
  | .data, .getData => .next (byteReceived j (regRead .i2cData s).1 (regRead .i2cData s).2)
  | .data, .store => storeByte j s
  | .stop, .putStop => i2cPut .i2cCtrl s.params.i2cStop .stop .waitDone s
  | .stop, .waitDone => waitDone false done (fun t => t.toI2c .stop .waitIdle t.cur.loc) s
  | .stop, .waitIdle => waitIdle (done Config.ok) s
  | .stop, .abort => abortStep done s
  | .stop, .abortIdle => waitIdle (fun t => done t.cur.loc.code t) s
  | _, _ => .fault .lostSequence

/-- An I2C operation begins (44_i2c.md R304, R313): an address above 0x7F is refused, a buffer over a register window is
refused (20_memory.md R84); then the first turn of `wait_idle()`. -/
def i2cBegin (addr7 : Word) (buf : Option Word) (count : Nat) (body : State → Result) (s : State) : Result :=
  if !addr7Ok addr7 then .refused .badAddress
  else if bufferOverlaps s.params.bases buf count then .refused .misalignedBuffer
  else body (s.toI2c .idle .waitIdle Locals.none)

/-- A whole simple transaction (44_i2c.md R304). -/
def simple (j : I2cJob) (done : Word → State → State) (s : State) : Result :=
  match s.cur.phase with
  | .idle => i2cBegin j.addr7 j.buf j.count (simpleSteps j done .idle .waitIdle) s
  | .i2c st pos => simpleSteps j done st pos s
  | _ => .fault .lostSequence

/-- The operation returns a result code (44_i2c.md R310). -/
def returnCode (c : Word) (s : State) : State := s.finish (some c)

/-! ### Operations -/

/-- `I2C.WRITE_N` (44_i2c.md R310). -/
def execI2cWriteN (addr7 buf n : Word) (s : State) : Result :=
  simple { read := false, addr7 := addr7, count := n.toNat, buf := some buf, nackLast := 0#32 } returnCode s

/-- `I2C.READ_N` (44_i2c.md R311). -/
def execI2cReadN (addr7 buf n nackLast : Word) (s : State) : Result :=
  simple { read := true, addr7 := addr7, count := n.toNat, buf := some buf, nackLast := nackLast } returnCode s

/-- The one-byte read of I2C.RTWB (44_i2c.md R312). -/
def rtwbRead (addr7 : Word) : I2cJob := { read := true, addr7 := addr7, count := 1, buf := none, nackLast := 1#32 }

/-- The one-byte write back of I2C.RTWB (44_i2c.md R312). -/
def rtwbWrite (addr7 : Word) : I2cJob := { read := false, addr7 := addr7, count := 1, buf := none, nackLast := 0#32 }

/-- Between the two transactions of I2C.RTWB (44_i2c.md R312): an error returns, `OK` begins the write of the byte read. -/
def rtwbTurn (c : Word) (s : State) : State :=
  if c = Config.ok then
    s.toI2c .idle .waitIdle { Locals.none with byte := s.cur.loc.byte, second := true }
  else returnCode c s

/-- `I2C.RTWB` (44_i2c.md R312): a simple read of one byte, then a simple write of it. -/
def execI2cRtwb (addr7 : Word) (s : State) : Result :=
  match s.cur.phase with
  | .idle => simple (rtwbRead addr7) rtwbTurn s
  | _ => if s.cur.loc.second then simple (rtwbWrite addr7) returnCode s else simple (rtwbRead addr7) rtwbTurn s

/-- The micro-steps of the repeated-start transaction after its first (44_i2c.md R313, R315); `second` in the locals says
that the repeated START has been commanded. -/
def repeatedStartSteps (addr7 : Word) (st : I2cState) (pos : I2cPos) (s : State) : Result :=
  match st, pos with
  | .idle, .waitIdle => waitIdle (fun t => t.toI2c .idle .addrData t.cur.loc) s
  | .idle, .addrData => i2cPut .i2cData (addressByte addr7 true) .idle .addrCtrl s
  | .idle, .addrCtrl => i2cPut .i2cCtrl s.params.i2cStart .addrSent .waitDone s
  | .addrSent, .waitDone =>
    waitDone true toAbort
      (fun t => t.toI2c .data (if t.cur.loc.second then .putData else .putCmd) t.cur.loc) s
  | .data, .putCmd =>
    i2cPut .i2cCtrl (if s.cur.loc.second then s.params.i2cWrite else s.params.i2cReadNack) .data .waitDone s
  | .data, .waitDone =>
    waitDone s.cur.loc.second toAbort
      (fun t => if t.cur.loc.second then toStop t else t.toI2c .data .getData t.cur.loc) s
  | .data, .getData =>
    .next ((regRead .i2cData s).2.toI2c .restart .addrData
      { s.cur.loc with byte := (regRead .i2cData s).1.setWidth 8, second := true })
  | .restart, .addrData => i2cPut .i2cData (addressByte addr7 false) .restart .addrCtrl s
  | .restart, .addrCtrl => i2cPut .i2cCtrl s.params.i2cRestart .addrSent .waitDone s
  | .data, .putData => i2cPut .i2cData (s.cur.loc.byte.setWidth 32) .data .putCmd s
  | .stop, .putStop => i2cPut .i2cCtrl s.params.i2cStop .stop .waitIdle s
  | .stop, .waitIdle => waitIdle (returnCode Config.ok) s
  | .stop, .abort => abortStep returnCode s
  | .stop, .abortIdle => waitIdle (fun t => returnCode t.cur.loc.code t) s
  | _, _ => .fault .lostSequence

/-- `I2C.RTWB_RS` (44_i2c.md R313). -/
def execI2cRtwbRs (addr7 : Word) (s : State) : Result :=
  match s.cur.phase with
  | .idle => i2cBegin addr7 none 0 (repeatedStartSteps addr7 .idle .waitIdle) s
  | .i2c st pos => repeatedStartSteps addr7 st pos s
  | _ => .fault .lostSequence

/-- `I2C.SET_PRESCALE` (44_i2c.md R314). -/
def execI2cSetPrescale (div : Word) (s : State) : Result := writeStatement .i2cPrescale div none s


end Sys2Proof.Machine
end

