-- ==== Sys2Proof/Machine/Irq.lean ====
section
/-! DEFINITION. The interrupt dispatcher's operations (42_irq_dispatcher.md). -/

namespace Sys2Proof.Machine

/-- Use before IRQ.INIT is refused (42_irq_dispatcher.md R211). -/
def afterInit (body : State → Result) (s : State) : Result :=
  if s.disp.state = .uninitialized then .refused .useBeforeInit else body s

/-- `disp.table[n] <- h` (42_irq_dispatcher.md R200, R201). -/
def State.bind (s : State) (n : Nat) (h : Word) : State :=
  { s with disp := { s.disp with table := s.disp.table.setIfInBounds n h } }

/-- `disp.table[n]` (42_irq_dispatcher.md R202). -/
def State.handlerOf (s : State) (n : Nat) : Word := s.disp.table.toList.getD n 0#32

/-- IRQ.INIT clears entry `n`; after entry 15 the vector is next (42_irq_dispatcher.md R200, 70_reset_and_hazards.md R429). -/
def clearEntry (n : Nat) (s : State) : Result :=
  .next ((s.bind n 0#32).goTo (if n + 1 < Config.irqMax then .irqClear else .irqVector) { Locals.none with idx := n + 1 })

/-- `IRQ.INIT` (42_irq_dispatcher.md R200): sixteen table writes, then the vector and `armed`. -/
def execIrqInit (entry : Word) (s : State) : Result :=
  match s.cur.phase with
  | .idle => clearEntry 0 s
  | .irqClear => clearEntry s.cur.loc.idx s
  | .irqVector =>
    let t := csrWrite .mtvec entry s
    .next (({ t with disp := { t.disp with state := .armed } } : State).finish none)
  | _ => .fault .lostSequence

/-- `IRQ.REGISTER` (42_irq_dispatcher.md R201). -/
def execIrqRegister (n handler : Word) (s : State) : Result :=
  afterInit (fun t =>
    if n.toNat < Config.irqMax then .next ((t.bind n.toNat handler).finish (some Config.ok))
    else returnNow (some Config.error) t) s

/-- IRQ.DISPATCH begins (42_irq_dispatcher.md R202): exceptions, codes out of range and unbound numbers return at once; else
the handler is called. -/
def dispatch (cause : Word) (s : State) : Result :=
  if s.disp.state = .uninitialized then .fault (.trapUninitialized cause)
  else if !causeIsIrq cause then returnNow none s
  else if Config.irqMax ≤ causeCode cause then returnNow none s
  else if s.handlerOf (causeCode cause) = 0#32 then returnNow none s
  else .next (callHandler (causeCode cause) (s.handlerOf (causeCode cause)) s)

/-- `IRQ.DISPATCH` (42_irq_dispatcher.md R202). -/
def execIrqDispatch (cause : Word) (s : State) : Result :=
  match s.cur.phase with
  | .idle => dispatch cause s
  | .irqReturn => .next ((s.emit [.handlerReturn s.cur.loc.idx]).finish none)
  | _ => .fault .lostSequence

/-- `IRQ.GLOBAL_ENABLE` (42_irq_dispatcher.md R204). -/
def execIrqGlobalEnable (s : State) : Result := afterInit (csrSet .mstatus (bitWord Config.mieBit)) s

/-- `IRQ.GLOBAL_DISABLE` (42_irq_dispatcher.md R205): needs no initialised dispatcher. -/
def execIrqGlobalDisable (s : State) : Result := csrClear .mstatus (bitWord Config.mieBit) s

/-- `IRQ.ENABLE_TIMER` (42_irq_dispatcher.md R206). -/
def execIrqEnableTimer (s : State) : Result := afterInit (csrSet .mie (bitWord Config.irqTimer)) s

/-- `IRQ.ENABLE_EXTERNAL` (42_irq_dispatcher.md R207). -/
def execIrqEnableExternal (s : State) : Result := afterInit (csrSet .mie (bitWord Config.irqExternal)) s

/-- `IRQ.DISABLE_TIMER` (42_irq_dispatcher.md R208). -/
def execIrqDisableTimer (s : State) : Result := csrClear .mie (bitWord Config.irqTimer) s

/-- `IRQ.DISABLE_EXTERNAL` (42_irq_dispatcher.md R209). -/
def execIrqDisableExternal (s : State) : Result := csrClear .mie (bitWord Config.irqExternal) s

end Sys2Proof.Machine
end

