-- ==== Sys2Proof/Machine/Pwm.lean ====
section
/-! DEFINITION. PWM register accesses and operations (45_timer_pwm.md R345 to R357). -/

namespace Sys2Proof.Machine

/-! ### Register accesses -/

/-- `RD PWM[0].CTRL` (45_timer_pwm.md R346). -/
def execRdPwm0Ctrl (s : State) : Result := readStatement (.pwmCtrl .c0) s

/-- `WR PWM[0].CTRL` (45_timer_pwm.md R346). -/
def execWrPwm0Ctrl (v : Word) (s : State) : Result := writeStatement (.pwmCtrl .c0) v none s

/-- `RD PWM[0].PERIOD` (45_timer_pwm.md R347). -/
def execRdPwm0Period (s : State) : Result := readStatement (.pwmPeriod .c0) s

/-- `WR PWM[0].PERIOD` (45_timer_pwm.md R347). -/
def execWrPwm0Period (v : Word) (s : State) : Result := writeStatement (.pwmPeriod .c0) v none s

/-- `RD PWM[0].DUTY` (45_timer_pwm.md R348). -/
def execRdPwm0Duty (s : State) : Result := readStatement (.pwmDuty .c0) s

/-- `WR PWM[0].DUTY` (45_timer_pwm.md R348). -/
def execWrPwm0Duty (v : Word) (s : State) : Result := writeStatement (.pwmDuty .c0) v none s

/-- `RD PWM[0].COUNTER` (45_timer_pwm.md R349). -/
def execRdPwm0Counter (s : State) : Result := readStatement (.pwmCounter .c0) s

/-- `RD PWM[1].CTRL` (45_timer_pwm.md R346). -/
def execRdPwm1Ctrl (s : State) : Result := readStatement (.pwmCtrl .c1) s

/-- `WR PWM[1].CTRL` (45_timer_pwm.md R346). -/
def execWrPwm1Ctrl (v : Word) (s : State) : Result := writeStatement (.pwmCtrl .c1) v none s

/-- `RD PWM[1].PERIOD` (45_timer_pwm.md R347). -/
def execRdPwm1Period (s : State) : Result := readStatement (.pwmPeriod .c1) s

/-- `WR PWM[1].PERIOD` (45_timer_pwm.md R347). -/
def execWrPwm1Period (v : Word) (s : State) : Result := writeStatement (.pwmPeriod .c1) v none s

/-- `RD PWM[1].DUTY` (45_timer_pwm.md R348). -/
def execRdPwm1Duty (s : State) : Result := readStatement (.pwmDuty .c1) s

/-- `WR PWM[1].DUTY` (45_timer_pwm.md R348). -/
def execWrPwm1Duty (v : Word) (s : State) : Result := writeStatement (.pwmDuty .c1) v none s

/-- `RD PWM[1].COUNTER` (45_timer_pwm.md R349). -/
def execRdPwm1Counter (s : State) : Result := readStatement (.pwmCounter .c1) s

/-! ### Operations -/

/-- Channel validation (45_timer_pwm.md R357): out of range returns `ERROR` with no access. -/
def channelOp (ch : Word) (body : Chan → State → Result) (s : State) : Result :=
  match channelOf ch with
  | some c => body c s
  | none => returnNow (some Config.error) s

/-- The first writes of PWM.INIT and PWM.START: a register write, then the phase of the next one. -/
def writeThen (r : Reg) (v : Word) (next : Phase) (s : State) : Result :=
  andThen (regWrite r v s) fun t => .next (t.goTo next Locals.none)

/-- `PWM.INIT` (45_timer_pwm.md R350): CTRL, PERIOD, DUTY to zero, in that order. -/
def pwmInitSteps (c : Chan) (s : State) : Result :=
  match s.cur.phase with
  | .idle => writeThen (.pwmCtrl c) 0#32 .pwmPeriod s
  | .pwmPeriod => writeThen (.pwmPeriod c) 0#32 .pwmDuty s
  | .pwmDuty => writeStatement (.pwmDuty c) 0#32 (some Config.ok) s
  | _ => .fault .lostSequence

/-- `PWM.START` (45_timer_pwm.md R355): PERIOD, DUTY, then the enable bit by read and write, four micro-steps. -/
def pwmStartSteps (period duty : Word) (c : Chan) (s : State) : Result :=
  match s.cur.phase with
  | .idle => writeThen (.pwmPeriod c) period .pwmDuty s
  | .pwmDuty => writeThen (.pwmDuty c) duty .pwmCtrl s
  | .pwmCtrl => .next ((regRead (.pwmCtrl c) s).2.goTo .rmwWrite { Locals.none with v := (regRead (.pwmCtrl c) s).1 })
  | .rmwWrite => writeStatement (.pwmCtrl c) (s.cur.loc.v ||| bitWord s.params.pwmEnBit) (some Config.ok) s
  | _ => .fault .lostSequence

/-- `PWM.INIT` (45_timer_pwm.md R350). -/
def execPwmInit (ch : Word) (s : State) : Result := channelOp ch pwmInitSteps s

/-- `PWM.SET_PERIOD` (45_timer_pwm.md R351). -/
def execPwmSetPeriod (ch period : Word) (s : State) : Result :=
  channelOp ch (fun c t =>
    if pwmValueOk period then writeStatement (.pwmPeriod c) period (some Config.ok) t
    else returnNow (some Config.error) t) s

/-- `PWM.SET_DUTY` (45_timer_pwm.md R352). -/
def execPwmSetDuty (ch duty : Word) (s : State) : Result :=
  channelOp ch (fun c t =>
    if pwmValueOk duty then writeStatement (.pwmDuty c) duty (some Config.ok) t
    else returnNow (some Config.error) t) s

/-- `PWM.ENABLE` (45_timer_pwm.md R353). -/
def execPwmEnable (ch : Word) (s : State) : Result :=
  channelOp ch (fun c => rmw (.pwmCtrl c) (fun v => v ||| bitWord s.params.pwmEnBit) (some Config.ok)) s

/-- `PWM.DISABLE` (45_timer_pwm.md R354). -/
def execPwmDisable (ch : Word) (s : State) : Result :=
  channelOp ch (fun c => rmw (.pwmCtrl c) (fun v => v &&& ~~~(bitWord s.params.pwmEnBit)) (some Config.ok)) s

/-- `PWM.START` (45_timer_pwm.md R355): both values checked before the first write. -/
def execPwmStart (ch period duty : Word) (s : State) : Result :=
  channelOp ch (fun c t =>
    if pwmValueOk period && pwmValueOk duty then pwmStartSteps period duty c t
    else returnNow (some Config.error) t) s

/-- `PWM.READ_COUNTER` (45_timer_pwm.md R356). -/
def execPwmReadCounter (ch : Word) (s : State) : Result :=
  channelOp ch (fun c => readThrough (.pwmCounter c) fun v => (v.setWidth 16).setWidth 32) s

end Sys2Proof.Machine
end

