-- ==== Sys2Proof/Machine/Spi.lean ====
section
/-! DEFINITION. SPI register accesses, command words and operations (43_spi.md). -/

namespace Sys2Proof.Machine

/-! ### Register accesses and command words -/

/-- `RD SPI.CTRL` (43_spi.md R232). -/
def execRdSpiCtrl (s : State) : Result := readStatement .spiCtrl s

/-- `WR SPI.CTRL` (43_spi.md R231). -/
def execWrSpiCtrl (v : Word) (s : State) : Result := writeStatement .spiCtrl v none s

/-- `RD SPI.STATUS` (43_spi.md R233). -/
def execRdSpiStatus (s : State) : Result := readStatement .spiStatus s

/-- `RD SPI.TXDATA` (43_spi.md R230). -/
def execRdSpiTxdata (s : State) : Result := readStatement .spiTxdata s

/-- `WR SPI.TXDATA` (43_spi.md R230). -/
def execWrSpiTxdata (v : Word) (s : State) : Result := writeStatement .spiTxdata v none s

/-- `RD SPI.RXDATA` (43_spi.md R234). -/
def execRdSpiRxdata (s : State) : Result := readStatement .spiRxdata s

/-- `RD SPI.CONFIG` (43_spi.md R235). -/
def execRdSpiConfig (s : State) : Result := readStatement .spiConfig s

/-- `WR SPI.CONFIG` (43_spi.md R235). -/
def execWrSpiConfig (v : Word) (s : State) : Result := writeStatement .spiConfig v none s

/-- `SPI.START8`, the command word written to SPI.CTRL (43_spi.md R241). -/
def execSpiStart8 (s : State) : Result := writeStatement .spiCtrl s.params.spiStart8 none s

/-- `SPI.START16`, the command word written to SPI.CTRL (43_spi.md R242). -/
def execSpiStart16 (s : State) : Result := writeStatement .spiCtrl s.params.spiStart16 none s

/-- `SPI.START32`, the command word written to SPI.CTRL (43_spi.md R243). -/
def execSpiStart32 (s : State) : Result := writeStatement .spiCtrl s.params.spiStart32 none s

/-! ### The unit transfer -/

/-- The unit transfer `xfer(w, t)` from its TXDATA write on (43_spi.md R244): write TXDATA, write CTRL, poll DONE, read
RXDATA; then `k` with the received unit. The unit stays in the locals. -/
def xferSteps (w : SpiWidth) (k : Word → State → State) (s : State) : Result :=
  match s.cur.phase with
  | .spiTx => andThen (regWrite .spiTxdata s.cur.loc.unit s) fun t => .next (t.goTo .spiCtrl s.cur.loc)
  | .spiCtrl => andThen (regWrite .spiCtrl (s.params.spiStart w) s) fun t => .next (t.goTo .spiPoll s.cur.loc)
  | .spiPoll => poll .spiStatus s.params.spiDoneBit true (fun _ t => t.goTo .spiRx s.cur.loc) s
  | .spiRx => .next (k (unitOf w (regRead .spiRxdata s).1) (regRead .spiRxdata s).2)
  | _ => .fault .lostSequence

/-- The unit transfer of `tx` from its first micro-step. -/
def xferFrom (w : SpiWidth) (tx : Word) (l : Locals) (k : Word → State → State) (s : State) : Result :=
  xferSteps w k (s.goTo .spiTx { l with unit := unitOf w tx })

/-- SPI.XFER8, SPI.XFER16, SPI.XFER32: one unit transfer of an operand of its width, its result the received unit
(43_spi.md R245 to R247). -/
def xferOne (w : SpiWidth) (tx : Word) (s : State) : Result :=
  match s.cur.phase with
  | .idle => withOperand (SpiWidth.bits w) tx (fun x => xferFrom w x Locals.none fun r t => t.finish (some r)) s
  | _ => xferSteps w (fun r t => t.finish (some r)) s

/-- `SPI.XFER8` (43_spi.md R245). -/
def execSpiXfer8 (tx : Word) (s : State) : Result := xferOne .w8 tx s

/-- `SPI.XFER16` (43_spi.md R246). -/
def execSpiXfer16 (tx : Word) (s : State) : Result := xferOne .w16 tx s

/-- `SPI.XFER32` (43_spi.md R247). -/
def execSpiXfer32 (tx : Word) (s : State) : Result := xferOne .w32 tx s

/-! ### Multi-unit transfers -/

/-- After unit `i` of `n`: the next unit, or the end (43_spi.md R248). -/
def nextUnit (n i : Nat) (s : State) : State :=
  if i + 1 < n then s.goTo .spiUnit { Locals.none with idx := i + 1 } else s.finish (some Config.ok)

/-- After a unit is received (43_spi.md R248): it is stored next if there is a receive buffer, else dropped. -/
def unitReceived (rxbuf : Option Word) (n i : Nat) (r : Word) (s : State) : State :=
  match rxbuf with
  | some _ => s.goTo .spiStore { Locals.none with idx := i, unit := r }
  | none => nextUnit n i s

/-- Unit `i` begins (43_spi.md R248): loaded from the transmit buffer, or the fill value sent at once. -/
def beginUnit (w : SpiWidth) (txbuf rxbuf : Option Word) (n i : Nat) (s : State) : Result :=
  match txbuf with
  | some a => memRead (unitAddress a w i) w s fun t => .next (s.goTo .spiTx { Locals.none with idx := i, unit := t })
  | none => xferFrom w (widthMask w) { Locals.none with idx := i } (unitReceived rxbuf n i) s

/-- The received unit is stored (43_spi.md R248). -/
def storeUnit (w : SpiWidth) (rxbuf : Option Word) (n : Nat) (s : State) : Result :=
  match rxbuf with
  | some a =>
    andThen (memWrite (unitAddress a w s.cur.loc.idx) w s.cur.loc.unit s) fun t => .next (nextUnit n s.cur.loc.idx t)
  | none => .fault .lostSequence

/-- SPI.XFERN8, SPI.XFERN16, SPI.XFERN32 (43_spi.md R248 to R250): `N <= 0`, read signed, returns `ERROR` with no access; a
buffer over a register window is refused (20_memory.md R84). -/
def xferMany (w : SpiWidth) (txbuf rxbuf : Option Word) (count : Word) (s : State) : Result :=
  let n := count.toInt.toNat
  match s.cur.phase with
  | .idle =>
    if count.toInt ≤ 0 then returnNow (some Config.error) s
    else if bufferOverlaps s.params.bases txbuf (n * SpiWidth.bytes w)
        || bufferOverlaps s.params.bases rxbuf (n * SpiWidth.bytes w) then .refused .misalignedBuffer
    else beginUnit w txbuf rxbuf n 0 s
  | .spiUnit => beginUnit w txbuf rxbuf n s.cur.loc.idx s
  | .spiStore => storeUnit w rxbuf n s
  | _ => xferSteps w (unitReceived rxbuf n s.cur.loc.idx) s

/-- `SPI.XFERN8` (43_spi.md R248). -/
def execSpiXfern8 (txbuf rxbuf : Option Word) (count : Word) (s : State) : Result := xferMany .w8 txbuf rxbuf count s

/-- `SPI.XFERN16` (43_spi.md R249). -/
def execSpiXfern16 (txbuf rxbuf : Option Word) (count : Word) (s : State) : Result := xferMany .w16 txbuf rxbuf count s

/-- `SPI.XFERN32` (43_spi.md R250). -/
def execSpiXfern32 (txbuf rxbuf : Option Word) (count : Word) (s : State) : Result := xferMany .w32 txbuf rxbuf count s

/-! ### Burst -/

/-- Unit `i` of a burst begins, or the burst ends (43_spi.md R251): with `SPI_BURST_FINAL_WAIT` it polls DONE first. The end is a
micro-step of its own, also where it only returns (DESIGN CHOICE, notes/assumptions/13.md). -/
def burstNext (w : SpiWidth) (buf len : Word) (s : State) : Result :=
  let i := s.cur.loc.idx
  if i < len.toNat / SpiWidth.bytes w then
    memRead (unitAddress buf w i) w s fun t => .next (s.goTo .burstTx { s.cur.loc with unit := t })
  else if s.params.burstFinalWait then
    poll .spiStatus s.params.spiDoneBit true (fun _ t => t.finish (some Config.ok)) (s.goTo .burstPoll s.cur.loc)
  else returnNow (some Config.ok) s

/-- After SPI.CONFIG is read (43_spi.md R251): an unrecognised divider or a length not a multiple of the width returns
`ERROR`; a misaligned buffer, or one over a register window (20_memory.md R84), is refused. -/
def burstChecked (buf len : Word) (body : SpiWidth → State → Result) (s : State) : Result :=
  match burstWidth s.params s.cur.loc.v with
  | none => returnNow (some Config.error) s
  | some w =>
    if len.toNat % SpiWidth.bytes w ≠ 0 then returnNow (some Config.error) s
    else if buf.toNat % SpiWidth.bytes w ≠ 0 || overlapsWindow s.params.bases buf.toNat len.toNat then
      .refused .misalignedBuffer
    else body w s

/-- `SPI.BURST` (43_spi.md R251): SPI.CONFIG read once, then each unit's TXDATA and CTRL writes with no wait between. -/
def execSpiBurst (buf len : Word) (s : State) : Result :=
  match s.cur.phase with
  | .idle => .next ((regRead .spiConfig s).2.goTo .burstUnit { Locals.none with v := (regRead .spiConfig s).1 })
  | .burstUnit => burstChecked buf len (fun w => burstNext w buf len) s
  | .burstTx => andThen (regWrite .spiTxdata s.cur.loc.unit s) fun t => .next (t.goTo .burstCtrl s.cur.loc)
  | .burstCtrl =>
    burstChecked buf len (fun w t =>
      andThen (regWrite .spiCtrl (t.params.spiStart w) t) fun u =>
        .next (u.goTo .burstUnit { t.cur.loc with idx := t.cur.loc.idx + 1 })) s
  | .burstPoll => poll .spiStatus s.params.spiDoneBit true (fun _ t => t.finish (some Config.ok)) s
  | _ => .fault .lostSequence

/-! ### Setters -/

/-- `SPI.SET_DIV` (43_spi.md R252). -/
def execSpiSetDiv (div : Word) (s : State) : Result :=
  rmw .spiConfig (putField s.params.spiDivLsb s.params.spiDivW div) none s

/-- `SPI.SET_MODE` (43_spi.md R253). -/
def execSpiSetMode (mode : Word) (s : State) : Result :=
  rmw .spiConfig (putField s.params.spiModeLsb s.params.spiModeW mode) none s

end Sys2Proof.Machine
end

