-- ==== Sys2Proof/Machine/Timer.lean ====
section
/-! DEFINITION. Machine timer register accesses (45_timer_pwm.md R340 to R342). -/

namespace Sys2Proof.Machine

/-- `RD TIMER.MTIME_LO` (45_timer_pwm.md R340). -/
def execRdTimerMtimeLo (s : State) : Result := readStatement .mtimeLo s

/-- `WR TIMER.MTIME_LO` (45_timer_pwm.md R341). -/
def execWrTimerMtimeLo (v : Word) (s : State) : Result := writeStatement .mtimeLo v none s

/-- `RD TIMER.MTIME_HI` (45_timer_pwm.md R340). -/
def execRdTimerMtimeHi (s : State) : Result := readStatement .mtimeHi s

/-- `WR TIMER.MTIME_HI` (45_timer_pwm.md R341). -/
def execWrTimerMtimeHi (v : Word) (s : State) : Result := writeStatement .mtimeHi v none s

/-- `RD TIMER.MTIMECMP_LO` (45_timer_pwm.md R342). -/
def execRdTimerMtimecmpLo (s : State) : Result := readStatement .mtimecmpLo s

/-- `WR TIMER.MTIMECMP_LO` (45_timer_pwm.md R342). -/
def execWrTimerMtimecmpLo (v : Word) (s : State) : Result := writeStatement .mtimecmpLo v none s

/-- `RD TIMER.MTIMECMP_HI` (45_timer_pwm.md R342). -/
def execRdTimerMtimecmpHi (s : State) : Result := readStatement .mtimecmpHi s

/-- `WR TIMER.MTIMECMP_HI` (45_timer_pwm.md R342). -/
def execWrTimerMtimecmpHi (v : Word) (s : State) : Result := writeStatement .mtimecmpHi v none s

end Sys2Proof.Machine
end

