-- ==== Sys2Proof/Machine/Dispatch.lean ====
section
/-! DEFINITION. exec: one arm per constructor of Instr, each the meaning of that instruction: its next micro-step. -/

namespace Sys2Proof.Machine

def exec (i : Instr) (s : State) : Host.Outcome State Fault Refusal :=
  match i with
  | .rdGpioDir => Sys2Proof.Machine.execRdGpioDir s
  | .wrGpioDir v => Sys2Proof.Machine.execWrGpioDir v s
  | .rdGpioOut => Sys2Proof.Machine.execRdGpioOut s
  | .wrGpioOut v => Sys2Proof.Machine.execWrGpioOut v s
  | .rdGpioIn => Sys2Proof.Machine.execRdGpioIn s
  | .rdGpioIntEn => Sys2Proof.Machine.execRdGpioIntEn s
  | .wrGpioIntEn v => Sys2Proof.Machine.execWrGpioIntEn v s
  | .rdGpioIntPend => Sys2Proof.Machine.execRdGpioIntPend s
  | .rdGpioIntClr => Sys2Proof.Machine.execRdGpioIntClr s
  | .wrGpioIntClr v => Sys2Proof.Machine.execWrGpioIntClr v s
  | .rdTimerMtimeLo => Sys2Proof.Machine.execRdTimerMtimeLo s
  | .wrTimerMtimeLo v => Sys2Proof.Machine.execWrTimerMtimeLo v s
  | .rdTimerMtimeHi => Sys2Proof.Machine.execRdTimerMtimeHi s
  | .wrTimerMtimeHi v => Sys2Proof.Machine.execWrTimerMtimeHi v s
  | .rdTimerMtimecmpLo => Sys2Proof.Machine.execRdTimerMtimecmpLo s
  | .wrTimerMtimecmpLo v => Sys2Proof.Machine.execWrTimerMtimecmpLo v s
  | .rdTimerMtimecmpHi => Sys2Proof.Machine.execRdTimerMtimecmpHi s
  | .wrTimerMtimecmpHi v => Sys2Proof.Machine.execWrTimerMtimecmpHi v s
  | .rdPwm0Ctrl => Sys2Proof.Machine.execRdPwm0Ctrl s
  | .wrPwm0Ctrl v => Sys2Proof.Machine.execWrPwm0Ctrl v s
  | .rdPwm0Period => Sys2Proof.Machine.execRdPwm0Period s
  | .wrPwm0Period v => Sys2Proof.Machine.execWrPwm0Period v s
  | .rdPwm0Duty => Sys2Proof.Machine.execRdPwm0Duty s
  | .wrPwm0Duty v => Sys2Proof.Machine.execWrPwm0Duty v s
  | .rdPwm0Counter => Sys2Proof.Machine.execRdPwm0Counter s
  | .rdPwm1Ctrl => Sys2Proof.Machine.execRdPwm1Ctrl s
  | .wrPwm1Ctrl v => Sys2Proof.Machine.execWrPwm1Ctrl v s
  | .rdPwm1Period => Sys2Proof.Machine.execRdPwm1Period s
  | .wrPwm1Period v => Sys2Proof.Machine.execWrPwm1Period v s
  | .rdPwm1Duty => Sys2Proof.Machine.execRdPwm1Duty s
  | .wrPwm1Duty v => Sys2Proof.Machine.execWrPwm1Duty v s
  | .rdPwm1Counter => Sys2Proof.Machine.execRdPwm1Counter s
  | .rdI2cCtrl => Sys2Proof.Machine.execRdI2cCtrl s
  | .wrI2cCtrl v => Sys2Proof.Machine.execWrI2cCtrl v s
  | .rdI2cStatus => Sys2Proof.Machine.execRdI2cStatus s
  | .rdI2cData => Sys2Proof.Machine.execRdI2cData s
  | .wrI2cData v => Sys2Proof.Machine.execWrI2cData v s
  | .rdI2cPrescale => Sys2Proof.Machine.execRdI2cPrescale s
  | .wrI2cPrescale v => Sys2Proof.Machine.execWrI2cPrescale v s
  | .rdSpiCtrl => Sys2Proof.Machine.execRdSpiCtrl s
  | .wrSpiCtrl v => Sys2Proof.Machine.execWrSpiCtrl v s
  | .rdSpiStatus => Sys2Proof.Machine.execRdSpiStatus s
  | .rdSpiTxdata => Sys2Proof.Machine.execRdSpiTxdata s
  | .wrSpiTxdata v => Sys2Proof.Machine.execWrSpiTxdata v s
  | .rdSpiRxdata => Sys2Proof.Machine.execRdSpiRxdata s
  | .rdSpiConfig => Sys2Proof.Machine.execRdSpiConfig s
  | .wrSpiConfig v => Sys2Proof.Machine.execWrSpiConfig v s
  | .spiStart8 => Sys2Proof.Machine.execSpiStart8 s
  | .spiStart16 => Sys2Proof.Machine.execSpiStart16 s
  | .spiStart32 => Sys2Proof.Machine.execSpiStart32 s
  | .i2cStart => Sys2Proof.Machine.execI2cStart s
  | .i2cRestart => Sys2Proof.Machine.execI2cRestart s
  | .i2cWrite => Sys2Proof.Machine.execI2cWrite s
  | .i2cReadAck => Sys2Proof.Machine.execI2cReadAck s
  | .i2cReadNack => Sys2Proof.Machine.execI2cReadNack s
  | .i2cStop => Sys2Proof.Machine.execI2cStop s
  | .gpioSetDir pin dir => Sys2Proof.Machine.execGpioSetDir pin dir s
  | .gpioGetDir pin => Sys2Proof.Machine.execGpioGetDir pin s
  | .gpioSetDirMask mask => Sys2Proof.Machine.execGpioSetDirMask mask s
  | .gpioGetDirMask => Sys2Proof.Machine.execGpioGetDirMask s
  | .gpioSetPin pin => Sys2Proof.Machine.execGpioSetPin pin s
  | .gpioClearPin pin => Sys2Proof.Machine.execGpioClearPin pin s
  | .gpioTogglePin pin => Sys2Proof.Machine.execGpioTogglePin pin s
  | .gpioWritePin pin level => Sys2Proof.Machine.execGpioWritePin pin level s
  | .gpioWrite mask => Sys2Proof.Machine.execGpioWrite mask s
  | .gpioReadPin pin => Sys2Proof.Machine.execGpioReadPin pin s
  | .gpioRead => Sys2Proof.Machine.execGpioRead s
  | .gpioIntEnable pin => Sys2Proof.Machine.execGpioIntEnable pin s
  | .gpioIntDisable pin => Sys2Proof.Machine.execGpioIntDisable pin s
  | .gpioIntPending => Sys2Proof.Machine.execGpioIntPending s
  | .gpioIntClear pin => Sys2Proof.Machine.execGpioIntClear pin s
  | .gpioSetAll => Sys2Proof.Machine.execGpioSetAll s
  | .gpioClearAll => Sys2Proof.Machine.execGpioClearAll s
  | .gpioToggleAll => Sys2Proof.Machine.execGpioToggleAll s
  | .irqInit entry => Sys2Proof.Machine.execIrqInit entry s
  | .irqRegister n handler => Sys2Proof.Machine.execIrqRegister n handler s
  | .irqDispatch cause => Sys2Proof.Machine.execIrqDispatch cause s
  | .irqGlobalEnable => Sys2Proof.Machine.execIrqGlobalEnable s
  | .irqGlobalDisable => Sys2Proof.Machine.execIrqGlobalDisable s
  | .irqEnableTimer => Sys2Proof.Machine.execIrqEnableTimer s
  | .irqEnableExternal => Sys2Proof.Machine.execIrqEnableExternal s
  | .irqDisableTimer => Sys2Proof.Machine.execIrqDisableTimer s
  | .irqDisableExternal => Sys2Proof.Machine.execIrqDisableExternal s
  | .spiXfer8 tx => Sys2Proof.Machine.execSpiXfer8 tx s
  | .spiXfer16 tx => Sys2Proof.Machine.execSpiXfer16 tx s
  | .spiXfer32 tx => Sys2Proof.Machine.execSpiXfer32 tx s
  | .spiXfern8 txbuf rxbuf count => Sys2Proof.Machine.execSpiXfern8 txbuf rxbuf count s
  | .spiXfern16 txbuf rxbuf count => Sys2Proof.Machine.execSpiXfern16 txbuf rxbuf count s
  | .spiXfern32 txbuf rxbuf count => Sys2Proof.Machine.execSpiXfern32 txbuf rxbuf count s
  | .spiBurst buf len => Sys2Proof.Machine.execSpiBurst buf len s
  | .spiSetDiv div => Sys2Proof.Machine.execSpiSetDiv div s
  | .spiSetMode mode => Sys2Proof.Machine.execSpiSetMode mode s
  | .i2cWriteN addr7 buf n => Sys2Proof.Machine.execI2cWriteN addr7 buf n s
  | .i2cReadN addr7 buf n nackLast => Sys2Proof.Machine.execI2cReadN addr7 buf n nackLast s
  | .i2cRtwb addr7 => Sys2Proof.Machine.execI2cRtwb addr7 s
  | .i2cRtwbRs addr7 => Sys2Proof.Machine.execI2cRtwbRs addr7 s
  | .i2cSetPrescale div => Sys2Proof.Machine.execI2cSetPrescale div s
  | .pwmInit ch => Sys2Proof.Machine.execPwmInit ch s
  | .pwmSetPeriod ch period => Sys2Proof.Machine.execPwmSetPeriod ch period s
  | .pwmSetDuty ch duty => Sys2Proof.Machine.execPwmSetDuty ch duty s
  | .pwmEnable ch => Sys2Proof.Machine.execPwmEnable ch s
  | .pwmDisable ch => Sys2Proof.Machine.execPwmDisable ch s
  | .pwmStart ch period duty => Sys2Proof.Machine.execPwmStart ch period duty s
  | .pwmReadCounter ch => Sys2Proof.Machine.execPwmReadCounter ch s

end Sys2Proof.Machine
end

