-- ==== Sys2Proof/Machine/Fetch.lean ====
section
/-! DEFINITION. Who moves next and what a context runs next (00_scope.md R9, 60_exceptions.md R375): the agenda, the trap
condition, and reading the head statement of the running context. `Step.lean` only acts on what `turn` answers. -/

namespace Sys2Proof.Machine

/-- The refusal of bytes that are no instruction (30_encoding.md R101, R123, R125). -/
def refusalOf : DecodeError → Refusal
  | .reservedOffset => .reservedOffset
  | .badAccess => .badAccess
  | .illegalCommand => .illegalCommand
  | .illegalOp => .illegalOp
  | .malformed => .malformedRequest

/-- What the machine does next. -/
inductive Turn where
  /-- A fault mark stands (10_state.md R54). -/
  | faulted (f : Fault)
  /-- A refusal mark stands (10_state.md R54). -/
  | refused (r : Refusal)
  /-- Another agent than the host moves. -/
  | device (m : Move)
  /-- A trap is taken (60_exceptions.md R375, R371). -/
  | trap (cause : Word)
  /-- The context performs a micro-step of an instruction. -/
  | instr (i : Instr)
  /-- The context performs one turn of a poll statement (40_register_access.md R142). -/
  | poll (r : Reg) (bit : Nat) (want : Bool)
  /-- The context performs a micro-step of a read-modify-write statement (40_register_access.md R143). -/
  | rmw (r : Reg) (clearMask setBits : Word)
  /-- The head statement is no instruction. -/
  | rejected (r : Refusal)
  /-- The entry stub reads the cause (60_exceptions.md R378). -/
  | stubEntry
  /-- The entry stub returns from the trap (60_exceptions.md R378, R379). -/
  | trapReturn
  /-- A handler has nothing left to run (42_irq_dispatcher.md R203). -/
  | handlerEnd
  /-- The main context has nothing to run. -/
  | idle
  deriving DecidableEq, Repr

/-- The instruction of a statement's bytes or of a bus access. -/
def decodeTurn (e : Except DecodeError Instr) : Turn :=
  match e with
  | .ok i => .instr i
  | .error x => .rejected (refusalOf x)

/-- What a statement makes its context do. -/
def requestTurn (p : Params) (q : Request) : Turn :=
  match q with
  | .stmt f bytes => decodeTurn (decodeBytes p f bytes)
  | .bus addr bits write data => decodeTurn (decodeBus p addr bits write data)
  | .poll r bit want => .poll r bit.val want
  | .rmw r c b => .rmw r c b

/-- What a context with no statement left does. -/
def emptyTurn (f : Frame) : Turn :=
  match f.kind with
  | .main => .idle
  | .stub _ => if f.phase = .stubEntry then .stubEntry else .trapReturn
  | .handler _ _ => .handlerEnd

/-- What the running context does when it is the host's move and no interrupt is taken. -/
def contextTurn (s : State) : Turn :=
  match s.cur.raising with
  | some code => .trap (exceptionCause code)
  | none =>
    match s.cur.prog with
    | q :: _ => requestTurn s.params q
    | [] => emptyTurn s.cur

/-- What the host does when it is its move: a pending, enabled interrupt is taken before the context's next micro-step
(60_exceptions.md R375). -/
def hostTurn (s : State) : Turn :=
  match pendingInterrupt s with
  | some n => .trap (irqCause n)
  | none => contextTurn s

/-- Whose move it is: the head of the agenda, the host when it is empty (notes/assumptions/4.md). -/
def nextMove (s : State) : Move := s.moves.headD .host

/-- What the machine does next. -/
def turn (s : State) : Turn :=
  match s.faulted, s.refused with
  | some f, _ => .faulted f
  | none, some r => .refused r
  | none, none => if nextMove s = .host then hostTurn s else .device (nextMove s)

/-- The agenda after this move. -/
def State.moved (s : State) : State := { s with moves := s.moves.tail }

/-- `POLL` as a statement (40_register_access.md R142): the status word of the turn that saw the bit is its result. -/
def execPoll (r : Reg) (bit : Nat) (want : Bool) (s : State) : Result :=
  poll r bit want (fun v t => t.finish (some v)) s

/-- `RMW` as a statement (40_register_access.md R143). -/
def execRmw (r : Reg) (clearMask setBits : Word) (s : State) : Result :=
  rmw r (fun v => (v &&& ~~~clearMask) ||| setBits) none s

/-- The statement placed at the head of the running context's program, at its first micro-step, the host to move. -/
def State.placed (s : State) (q : Request) : State :=
  { s with
    cur := { s.cur with prog := q :: s.cur.prog, phase := .idle, loc := Locals.none }
    moves := .host :: s.moves }

/-- The state a run leaves behind after an outcome (10_state.md R54): a stop sets its mark (notes/assumptions/25.md). -/
def State.absorb (s : State) (o : Result) : State :=
  match o with
  | .next t => t
  | .fault f => { s with faulted := some f }
  | .refused r => { s with refused := some r }

end Sys2Proof.Machine
end

