-- ==== Sys2Proof/Machine/Step.lean ====
section
/-! DEFINITION. One step: one micro-step of the host, one move of another agent, a trap entry or a trap return
(spec/INDEX.md "How to read it", 00_scope.md R9). -/

namespace Sys2Proof.Machine

/-- One step of the machine. -/
def step (s : State) : Host.Outcome State Fault Refusal :=
  match turn s with
  | .faulted f => .fault f
  | .refused r => .refused r
  | .device m => .next (deviceMove m s.moved)
  | .trap cause => takeTrap cause s.moved
  | .instr i => exec i s.moved
  | .poll r bit want => execPoll r bit want s.moved
  | .rmw r c b => execRmw r c b s.moved
  | .rejected r => .refused r
  | .stubEntry => stubEntry s.moved
  | .trapReturn => trapReturn s.moved
  | .handlerEnd => handlerEnd s.moved
  | .idle => .next s.moved

/-- `s` with the instruction of a table word placed where `step` takes its next instruction: at the head of the running
context's program, with the host to move (notes/assumptions/3.md). -/
def State.withFetchWord (s : State) (nbits w : Nat) : State :=
  s.placed (.stmt (tableStatement s.params nbits w).1 (tableStatement s.params nbits w).2)

end Sys2Proof.Machine
end

