-- ==== Sys2Proof/Safety.lean ====
section
/-! DEFINITION. What claims are stated in: launch premises, the invariants of devices and contexts, and runs of one
instruction among the other agents' moves, endless runs and the premises on them. -/

namespace Sys2Proof.Machine

/-! ### Launch premises -/

/-- `CleanEntry` (10_state.md R57): the engines quiet, every context idle, no trap, no mark. It says nothing of any register. -/
structure State.CleanEntry (s : State) : Prop where
  spiIdle : s.spi.inflight = none
  spiNotBusy : s.spi.busy = false
  i2cIdle : s.i2c.cmd = none
  i2cNotOwned : s.i2c.own = false
  curIdle : s.cur.phase = .idle
  suspIdle : ∀ f ∈ s.susp, f.phase = .idle
  noTrap : s.trapDepth = 0
  notFaulted : s.faulted = none
  notRefused : s.refused = none

/-- What power-on leaves, and no more (10_state.md R56, 70_reset_and_hazards.md R410): every element the table calls
unspecified is left open. -/
structure State.PowerOn (s : State) : Prop where
  disp : s.disp.state = .uninitialized
  mie : s.csr.mstatusMIE = false
  noTrap : s.trapDepth = 0
  curIdle : s.cur.phase = .idle
  suspIdle : ∀ f ∈ s.susp, f.phase = .idle
  notFaulted : s.faulted = none
  notRefused : s.refused = none
  noHistory : s.history = []

/-! ### Invariants -/

/-- What always holds of the devices, the memory and the marks between two steps. -/
structure State.DeviceInv (s : State) : Prop where
  /-- The parameters meet their constraints (00_scope.md R5). -/
  params : s.params.Valid
  /-- Buffer memory is in its canonical form. -/
  mem : s.mem.wf
  /-- BUSY = 1 exactly while a unit is in flight (10_state.md R31). -/
  spiBusy : s.spi.busy = s.spi.inflight.isSome
  /-- BUSY and DONE are never both 1 (10_state.md R31). -/
  spiExclusive : (s.spi.busy && s.spi.done) = false
  /-- The unit in flight is a value of its width (10_state.md R35). -/
  spiUnit : ∀ u, s.spi.inflight = some u → unitOf u.width u.value = u.value
  /-- While this controller owns the bus no other holds it (44_i2c.md R291). -/
  i2cOwner : (s.i2c.own && s.i2c.extBusy) = false
  /-- The upper bits of I2C.DATA are zero (10_state.md R38). -/
  i2cData : s.i2c.data.toNat < 256
  /-- `trap.depth` is 0 or 1 (10_state.md R45). -/
  depth : s.trapDepth ≤ 1
  /-- No mark is set (10_state.md R54). -/
  notFaulted : s.faulted = none
  notRefused : s.refused = none

/-- Whether a context is the trap entry stub. -/
def Frame.isStub (f : Frame) : Bool :=
  match f.kind with
  | .stub _ => true
  | _ => false

/-- The contexts, the running one first. -/
def State.contexts (s : State) : List Frame := s.cur :: s.susp

/-- What always holds of the contexts between two steps: the main context is the outermost; `trap.depth` counts the entry
stubs (10_state.md R45); and the context below a stub is the interrupted one, at the resume point that `mepc` holds
(60_exceptions.md R377, R379). -/
structure State.ContextInv (s : State) : Prop where
  outermost : s.contexts.getLast?.map Frame.kind = some .main
  depth : s.trapDepth = s.contexts.countP Frame.isStub
  depthLe : s.trapDepth ≤ 1
  resume : ∀ inner f outer, s.contexts = inner ++ f :: outer → f.isStub = true →
    ∃ g rest, outer = g :: rest ∧ rest.length = s.csr.mepc.depth ∧ g.phase = s.csr.mepc.phase ∧
      g.prog.length = s.csr.mepc.left

/-! ### Terms of the claims -/

/-- The pad level of a pin (41_gpio.md R166), free where an output is not looped back. -/
def State.padLevel (s : State) (pin : Nat) : Bool :=
  if s.gpio.dir.getLsbD pin = s.params.dirOutIs1 then
    (if s.params.loopback then s.gpio.out.getLsbD pin else s.draws.head.getLsbD pin)
  else s.gpio.ext.getLsbD pin

/-- No mark stands and it is the host's move (10_state.md R54, 00_scope.md R9). -/
abbrev State.HostToMove (s : State) : Prop := s.faulted = none ∧ s.refused = none ∧ nextMove s = .host

/-! ### Runs of one instruction -/

/-- The micro-steps of instruction `i` at the host moves of a list, other agents' moves between them
(00_scope.md R9, R14). -/
def play (i : Instr) : List Move → State → Result
  | [], s => .next s
  | .host :: ms, s => andThen (exec i s) (play i ms)
  | m :: ms, s => play i ms (deviceMove m s)

/-- `n` micro-steps of instruction `i` with nothing between. -/
def perform (i : Instr) (n : Nat) (s : State) : Result := play i (List.replicate n .host) s

/-! ### Endless runs, premises on them, and fairness -/

/-- The state at its next step when the move is `m` (00_scope.md R9). -/
def State.toMove (s : State) (m : Move) : State := { s with moves := [m] }

/-- An endless run of the machine, each move the one the schedule names, that never stops (00_scope.md R9). -/
def Runs (sched : Nat → Move) (run : Nat → State) : Prop :=
  ∀ n, step ((run n).toMove (sched n)) = .next (run (n + 1))

/-- The same of a run that may stop: a fault or a refusal sets its mark, and the marked state stays (10_state.md R54). -/
def RunsOrStops (sched : Nat → Move) (run : Nat → State) : Prop :=
  ∀ n, run (n + 1) = ((run n).toMove (sched n)).absorb (step ((run n).toMove (sched n)))

/-- A mark is set (10_state.md R54). -/
def State.Stopped (s : State) : Prop := s.faulted ≠ none ∨ s.refused ≠ none

/-- How many of the first `n` moves are the host's. -/
def hostMoves (sched : Nat → Move) (n : Nat) : Nat := (List.range n).countP fun k => sched k = .host

/-- The units of the `SpiUnit` events of a list, in order (00_scope.md R12). -/
def spiUnits (es : List Event) : List SpiUnit :=
  es.filterMap fun e => match e with
    | .spiUnit w t _ => some { width := w, value := t }
    | _ => none

/-- The edge detector is weakly fair (41_gpio.md R168): its step, which is always enabled, is made again and again. -/
def DetectorFair (sched : Nat → Move) : Prop := ∀ n, ∃ m, n ≤ m ∧ sched m = .detect

/-- `SPI_COMPLETES` (70_reset_and_hazards.md R421): unless the machine stops, a unit in flight is completed in the end. -/
def SpiCompletes (run : Nat → State) : Prop :=
  ∀ n, (run n).spi.inflight.isSome = true → ∃ m, n < m ∧ ((run m).spi.inflight = none ∨ (run m).Stopped)

/-- `I2C_COMPLETES` (70_reset_and_hazards.md R421): unless the machine stops, a phase in flight is completed in the end. -/
def I2cCompletes (run : Nat → State) : Prop :=
  ∀ n, (run n).i2c.cmd.isSome = true → ∃ m, n < m ∧ ((run m).i2c.cmd = none ∨ (run m).Stopped)

/-- `I2C_BUS_FREES` (70_reset_and_hazards.md R421): unless the machine stops, while this controller does not own the bus no
other holds it for ever. -/
def I2cBusFrees (run : Nat → State) : Prop :=
  ∀ n, ∃ m, n ≤ m ∧ ((run m).i2c.own = true ∨ (run m).i2c.extBusy = false ∨ (run m).Stopped)

/-- Move `n` of a run is a micro-step of an SPI.BURST (43_spi.md R251): the one at phase `ph` of its unit `i`, made by the
context with `depth` others below it. -/
structure BurstStep (sched : Nat → Move) (run : Nat → State) (ph : Phase) (depth i n : Nat) : Prop where
  burst : ∃ buf len, turn ((run n).toMove (sched n)) = .instr (.spiBurst buf len)
  phase : (run n).cur.phase = ph
  depth : (run n).susp.length = depth
  unit : (run n).cur.loc.idx = i

/-- Move `n` of a run is the engine step of 43_spi.md R236: a unit in flight is completed. -/
def EngineStep (sched : Nat → Move) (run : Nat → State) (n : Nat) : Prop :=
  ∃ answer, sched n = .spi answer ∧ (run n).spi.inflight.isSome = true ∧ ¬(run n).Stopped

/-- `SPI_BURST_ABSORBS` (43_spi.md R256, 70_reset_and_hazards.md R422), of a run that may stop: between the write of SPI.CTRL for
unit `i` of a burst and the write of SPI.TXDATA for its unit `i + 1` the engine step fires. Nothing is said of a burst's unit
0, whose write faults if a unit of an earlier operation is still in flight (70_reset_and_hazards.md R423). -/
def SpiBurstAbsorbs (sched : Nat → Move) (run : Nat → State) : Prop :=
  ∀ depth i n m, n < m → BurstStep sched run .burstCtrl depth i n → BurstStep sched run .burstTx depth (i + 1) m →
    ∃ k, n < k ∧ k < m ∧ EngineStep sched run k

end Sys2Proof.Machine
end

