-- ==== Sys2Proof/Certificates/Slice0/Obligations.lean ====
section
/-! DEFINITION. The statements for the provers. Each docstring names the rules of spec/ it formalises; where a statement rests on
a choice of the model it names the log entry. -/

open Sys2Proof Sys2Proof.Machine

/-! ### GPIO (41_gpio.md) -/

/-- 41_gpio.md R162, R164, R174, R184, R187: the read-only registers and the bitmask reads return the register (the pads of
R166 for GPIO.IN) in the implemented bits and a free value above; nothing else changes; a write to a read-only register is a
bad access. -/
def Obligations.GpioBitmaskReadsReturnImplementedBits : Prop :=
  ∀ s : State, ∀ row ∈ [
      (Instr.rdGpioIn, Reg.gpioIn, s.padLevel), (.gpioRead, .gpioIn, s.padLevel),
      (.rdGpioIntPend, .gpioIntPend, s.gpio.intPend.getLsbD), (.gpioIntPending, .gpioIntPend, s.gpio.intPend.getLsbD),
      (.rdGpioDir, .gpioDir, s.gpio.dir.getLsbD), (.gpioGetDirMask, .gpioDir, s.gpio.dir.getLsbD)],
    ∃ v : Word,
      (∀ p, p < 32 → v.getLsbD p = if p ≤ s.params.pinMax then row.2.2 p else s.draws.head.getLsbD p) ∧
      exec row.1 s = .next (((s.emit [.regRd row.2.1 v]).takeDraw).finish (some v)) ∧
      (∀ w, decodeBytes s.params (.mmio .gpio) (mmioBytes 0x108 w) = .error .badAccess) ∧
      ∀ w, decodeBytes s.params (.mmio .gpio) (mmioBytes 0x114 w) = .error .badAccess

/-- 41_gpio.md R160, R173: a write of GPIO.DIR, by register access or by GPIO.SET_DIR_MASK, replaces the implemented bits and
drops the others. Which pad events a write logs, and that they follow the write's own event, is the model's choice
(notes/assumptions/15.md): with loopback, one for each implemented pin whose direction changed and whose output and external
levels differ, with its new level; without loopback none. -/
def Obligations.GpioDirWritesReplaceImplementedBits : Prop :=
  ∀ (s : State) (v : Word), ∀ i ∈ [Instr.wrGpioDir v, .gpioSetDirMask v],
    ∃ d : Word,
      (∀ p, p < 32 → d.getLsbD p = if p ≤ s.params.pinMax then v.getLsbD p else s.gpio.dir.getLsbD p) ∧
      exec i s = .next (({ s with
        gpio := { s.gpio with dir := d }
        history := s.history ++ [.regWr .gpioDir v] ++ padEvents s.params s.gpio { s.gpio with dir := d } } : State).finish
          none) ∧
      ∀ e, e ∈ padEvents s.params s.gpio { s.gpio with dir := d } ↔ s.params.loopback = true ∧ ∃ p, p < 32 ∧
        p ≤ s.params.pinMax ∧ s.gpio.dir.getLsbD p ≠ d.getLsbD p ∧ s.gpio.out.getLsbD p ≠ s.gpio.ext.getLsbD p ∧
        e = .padChange p (if d.getLsbD p = s.params.dirOutIs1 then s.gpio.out.getLsbD p else s.gpio.ext.getLsbD p)

/-- 41_gpio.md R161, R179, R180, R181: GPIO.OUT reads back what was written, not the pads; a write, by register access or by
GPIO.WRITE, GPIO.SET_ALL, GPIO.CLEAR_ALL, replaces the implemented bits and the pads of output pins follow at once. The pad
events are the model's choice (notes/assumptions/15.md): with loopback, one for each implemented output pin whose bit changed,
with its new level, after the write's own event; without loopback none. -/
def Obligations.GpioOutAccessIsImmediate : Prop :=
  ∀ (s : State) (x : Word),
    (∃ v : Word,
      (∀ p, p < 32 → v.getLsbD p = if p ≤ s.params.pinMax then s.gpio.out.getLsbD p else s.draws.head.getLsbD p) ∧
      exec .rdGpioOut s = .next (((s.emit [.regRd .gpioOut v]).takeDraw).finish (some v))) ∧
    ∀ row ∈ [(Instr.wrGpioOut x, x), (.gpioWrite x, x), (.gpioSetAll, 0xFFFFFFFF#32), (.gpioClearAll, 0#32)],
      ∃ o : Word,
        (∀ p, p < 32 → o.getLsbD p = if p ≤ s.params.pinMax then row.2.getLsbD p else s.gpio.out.getLsbD p) ∧
        exec row.1 s = .next (({ s with
          gpio := { s.gpio with out := o }
          history := s.history ++ [.regWr .gpioOut row.2] ++ padEvents s.params s.gpio { s.gpio with out := o } } :
            State).finish none) ∧
        ∀ e, e ∈ padEvents s.params s.gpio { s.gpio with out := o } ↔ s.params.loopback = true ∧ ∃ p, p < 32 ∧
          p ≤ s.params.pinMax ∧ s.gpio.dir.getLsbD p = s.params.dirOutIs1 ∧ s.gpio.out.getLsbD p ≠ o.getLsbD p ∧
          e = .padChange p (o.getLsbD p)

/-- 41_gpio.md R163, R165, R169: GPIO.INT_EN holds what is written in its implemented bits and GPIO.INT_CLR clears the flags
whose bits are 1, neither touching the other or the detector's last sample; the request is 1 exactly when an implemented pin
is both pending and enabled, so it re-forms at the write. -/
def Obligations.GpioInterruptRegistersFormTheRequest : Prop :=
  ∀ (s : State) (x : Word),
    (gpioIrq s = true ↔ ∃ p, p < 32 ∧ p ≤ s.params.pinMax ∧ s.gpio.intPend.getLsbD p = true ∧
      s.gpio.intEn.getLsbD p = true) ∧
    (∃ v : Word,
      (∀ p, p < 32 → v.getLsbD p = if p ≤ s.params.pinMax then s.gpio.intEn.getLsbD p else s.draws.head.getLsbD p) ∧
      exec .rdGpioIntEn s = .next (((s.emit [.regRd .gpioIntEn v]).takeDraw).finish (some v))) ∧
    (∃ e : Word,
      (∀ p, p < 32 → e.getLsbD p = if p ≤ s.params.pinMax then x.getLsbD p else s.gpio.intEn.getLsbD p) ∧
      exec (.wrGpioIntEn x) s = .next ((({ s with gpio := { s.gpio with intEn := e } } : State).emit
        [.regWr .gpioIntEn x]).finish none)) ∧
    exec .rdGpioIntClr s = .next
      (((s.emit [.regRd .gpioIntClr s.draws.head]).takeDraw).finish (some s.draws.head)) ∧
    ∃ f : Word,
      (∀ p, p < 32 → f.getLsbD p = (s.gpio.intPend.getLsbD p && !(decide (p ≤ s.params.pinMax) && x.getLsbD p))) ∧
      exec (.wrGpioIntClr x) s = .next ((({ s with gpio := { s.gpio with intPend := f } } : State).emit
        [.regWr .gpioIntClr x]).finish none)

/-- 41_gpio.md R175 to R178: GPIO.SET_PIN, CLEAR_PIN, TOGGLE_PIN and WRITE_PIN read GPIO.OUT, then write it back with the one
bit changed, and return OK; nothing else changes but the pads that follow, whose events are the model's choice
(notes/assumptions/15.md); a pin that is an output looped back then reads as it was written. A level that is no bit counts as
a free one (notes/assumptions/26.md). -/
def Obligations.GpioPinOutputOperationsChangeOneBit : Prop :=
  ∀ (s : State) (pin level : Word), s.cur.phase = .idle → s.params.pinMax ≤ 31 → pin.toNat ≤ s.params.pinMax →
    ∃ free : Bool, ∀ row ∈ [(Instr.gpioSetPin pin, true), (.gpioClearPin pin, false),
        (.gpioTogglePin pin, !s.gpio.out.getLsbD pin.toNat),
        (.gpioWritePin pin level, if level.toNat < 2 then decide (level = 1#32) else free)],
      ∃ (v w : Word) (u t : State),
        (∀ p, p < 32 → v.getLsbD p = if p ≤ s.params.pinMax then s.gpio.out.getLsbD p else s.draws.head.getLsbD p) ∧
        (∀ p, p < 32 → w.getLsbD p = if p = pin.toNat then row.2 else v.getLsbD p) ∧
        exec row.1 s = .next u ∧
        u = ((s.emit [.regRd .gpioOut v]).takeDraw).goTo .rmwWrite { Locals.none with v := v } ∧
        exec row.1 u = .next t ∧
        t = ({ u with
          gpio := { s.gpio with out := setBit s.gpio.out pin.toNat row.2 }
          history := u.history ++ [.regWr .gpioOut w] ++
            padEvents s.params s.gpio { s.gpio with out := setBit s.gpio.out pin.toNat row.2 }
          draws := t.draws } : State).finish (some 0#32) ∧
        (level.toNat < 2 → t.draws = u.draws) ∧
        (s.params.loopback = true → s.gpio.dir.getLsbD pin.toNat = s.params.dirOutIs1 →
          ∃ r, exec (.gpioReadPin pin) t = .next r ∧ r.cur.result = some (if row.2 then 1#32 else 0#32))

/-- 41_gpio.md R171: GPIO.SET_DIR makes the pin's direction bit the one that stands for the wanted direction, in two accesses,
and returns OK; nothing else changes but the pads that re-resolve, whose events are the model's choice
(notes/assumptions/15.md). A direction that is no bit counts as a free one (notes/assumptions/26.md). -/
def Obligations.GpioSetDirChangesOneDirection : Prop :=
  ∀ (s : State) (pin dir : Word), s.cur.phase = .idle → s.params.pinMax ≤ 31 → pin.toNat ≤ s.params.pinMax →
    ∃ (out : Bool) (v w : Word) (u t : State),
      (dir.toNat < 2 → out = decide (dir = 1#32)) ∧
      (∀ p, p < 32 → v.getLsbD p = if p ≤ s.params.pinMax then s.gpio.dir.getLsbD p else s.draws.head.getLsbD p) ∧
      (∀ p, p < 32 → w.getLsbD p =
        if p = pin.toNat then (out == s.params.dirOutIs1) else v.getLsbD p) ∧
      exec (.gpioSetDir pin dir) s = .next u ∧
      u = ((s.emit [.regRd .gpioDir v]).takeDraw).goTo .rmwWrite { Locals.none with v := v } ∧
      exec (.gpioSetDir pin dir) u = .next t ∧
      t = ({ u with
        gpio := { s.gpio with dir := setBit s.gpio.dir pin.toNat (out == s.params.dirOutIs1) }
        history := u.history ++ [.regWr .gpioDir w] ++ padEvents s.params s.gpio
          { s.gpio with dir := setBit s.gpio.dir pin.toNat (out == s.params.dirOutIs1) }
        draws := t.draws } : State).finish (some 0#32) ∧
      (dir.toNat < 2 → t.draws = u.draws)

/-- 41_gpio.md R185, R186: GPIO.INT_ENABLE and GPIO.INT_DISABLE change the pin's enable bit, in two accesses, and return OK;
no pending flag and nothing else changes. -/
def Obligations.GpioInterruptEnableChangesOneBit : Prop :=
  ∀ (s : State) (pin : Word), s.cur.phase = .idle → s.params.pinMax ≤ 31 → pin.toNat ≤ s.params.pinMax →
    ∀ row ∈ [(Instr.gpioIntEnable pin, true), (.gpioIntDisable pin, false)],
      ∃ (v w : Word) (u t : State),
        (∀ p, p < 32 → v.getLsbD p = if p ≤ s.params.pinMax then s.gpio.intEn.getLsbD p else s.draws.head.getLsbD p) ∧
        (∀ p, p < 32 → w.getLsbD p = if p = pin.toNat then row.2 else v.getLsbD p) ∧
        exec row.1 s = .next u ∧
        u = ((s.emit [.regRd .gpioIntEn v]).takeDraw).goTo .rmwWrite { Locals.none with v := v } ∧
        exec row.1 u = .next t ∧
        t = (({ u with gpio := { s.gpio with intEn := setBit s.gpio.intEn pin.toNat row.2 } } : State).emit
          [.regWr .gpioIntEn w]).finish (some 0#32)

/-- 41_gpio.md R172, R183, R188: GPIO.GET_DIR returns 1 for an output, GPIO.READ_PIN returns the pad, GPIO.INT_CLEAR clears
the pin's flag by one write with no read; nothing else changes. -/
def Obligations.GpioPinOneAccessOperations : Prop :=
  ∀ (s : State) (pin : Word), s.params.pinMax ≤ 31 → pin.toNat ≤ s.params.pinMax →
    (∃ v : Word, exec (.gpioGetDir pin) s = .next (((s.emit [.regRd .gpioDir v]).takeDraw).finish
      (some (if s.gpio.dir.getLsbD pin.toNat = s.params.dirOutIs1 then 1#32 else 0#32)))) ∧
    (∃ v : Word, exec (.gpioReadPin pin) s = .next (((s.emit [.regRd .gpioIn v]).takeDraw).finish
      (some (if s.padLevel pin.toNat then 1#32 else 0#32)))) ∧
    exec (.gpioIntClear pin) s = .next ((({ s with gpio := { s.gpio with
      intPend := setBit s.gpio.intPend pin.toNat false } } : State).emit
        [.regWr .gpioIntClr (1#32 <<< pin.toNat)]).finish (some 0#32))

/-- 41_gpio.md R170: with a pin above PIN_MAX every per-pin operation returns ERROR and does nothing else: no register access,
no change of any register, no event. The bitmask and all-pin operations validate nothing: whatever the operand, each of their
micro-steps is an access, an event of the history. -/
def Obligations.GpioPinOutOfRangeReturnsError : Prop :=
  ∀ (s : State) (pin x : Word),
    (∀ i ∈ [Instr.gpioSetDirMask x, .gpioGetDirMask, .gpioWrite x, .gpioRead, .gpioIntPending, .gpioSetAll, .gpioClearAll,
        .gpioToggleAll],
      ∀ t, exec i s = .next t → s.history.length < t.history.length) ∧
    (s.params.pinMax < pin.toNat → ∀ i ∈ [Instr.gpioSetDir pin x, .gpioGetDir pin, .gpioSetPin pin, .gpioClearPin pin,
        .gpioTogglePin pin, .gpioWritePin pin x, .gpioReadPin pin, .gpioIntEnable pin, .gpioIntDisable pin,
        .gpioIntClear pin],
      exec i s = .next (s.finish (some 0xFFFFFFFF#32)))

/-- 41_gpio.md R182: GPIO.TOGGLE_ALL, `OP` 0x21, reads GPIO.OUT and writes its complement: every implemented bit flips,
nothing else changes but the pads that follow, whose events are the model's choice (notes/assumptions/15.md), as the layout of
the bytes that hold the code is (notes/assumptions/1.md). -/
def Obligations.GpioToggleAllFlipsEveryPin : Prop :=
  ∀ s : State, s.cur.phase = .idle →
    decodeBytes s.params .op (opBytes 0x21#8 0#32 0#32 0#32 0#32) = .ok .gpioToggleAll ∧
    ∃ (v o : Word) (u : State),
      (∀ p, p < 32 → o.getLsbD p = if p ≤ s.params.pinMax then !s.gpio.out.getLsbD p else s.gpio.out.getLsbD p) ∧
      exec .gpioToggleAll s = .next u ∧
      u = ((s.emit [.regRd .gpioOut v]).takeDraw).goTo .rmwWrite { Locals.none with v := v } ∧
      exec .gpioToggleAll u = .next (({ u with
        gpio := { s.gpio with out := o }
        history := u.history ++ [.regWr .gpioOut (~~~v)] ++ padEvents s.params s.gpio { s.gpio with out := o } } :
          State).finish none)

/-- 41_gpio.md R166, R167, 44_i2c.md R291: the environment sets the external levels, and a pad event is logged for exactly the
pins whose pad changed, with the new level (no event for a pin whose level is free, notes/assumptions/15.md); another
controller takes or frees the I2C bus only while this one does not own it (a move that would do it then changes nothing,
notes/assumptions/17.md). -/
def Obligations.EnvironmentMovesChangeTheirOwnState : Prop :=
  ∀ (s : State) (ms : List Move), s.faulted = none → s.refused = none →
    (∀ ext : Word, s.moves = .pads ext :: ms → ∃ es : List Event,
      step s = .next { s with gpio := { s.gpio with ext := ext }, history := s.history ++ es, moves := ms } ∧
      ∀ e, e ∈ es ↔ ∃ p, p < 32 ∧ p ≤ s.params.pinMax ∧ s.gpio.dir.getLsbD p ≠ s.params.dirOutIs1 ∧
        s.gpio.ext.getLsbD p ≠ ext.getLsbD p ∧ e = .padChange p (ext.getLsbD p)) ∧
    ∀ b : Bool, s.moves = .extBusy b :: ms →
      (s.i2c.own = false → step s = .next { s with i2c := { s.i2c with extBusy := b }, moves := ms }) ∧
      (s.i2c.own = true → step s = .next { s with moves := ms })

/-- 41_gpio.md R168: the edge detector samples the pads; a pin that rose since the last sample logs an edge and sets its
pending flag (with GPIO_PEND_GATED only when enabled); a falling edge and a steady level set nothing and no flag is cleared.
In an endless run whose schedule is weakly fair to the detector a level that stays is sampled in the end. -/
def Obligations.EdgeDetectorLatchesRisingEdges : Prop :=
  (∀ (s : State) (ms : List Move), s.faulted = none → s.refused = none → s.moves = .detect :: ms →
    ∃ (pend prev : Word) (es : List Event),
      step s = .next { s with
        gpio := { s.gpio with intPend := pend, inPrev := prev }
        history := s.history ++ es
        moves := ms
        draws := s.draws.next } ∧
      (∀ p, p < 32 → prev.getLsbD p = (decide (p ≤ s.params.pinMax) && s.padLevel p)) ∧
      (∀ p, p < 32 → pend.getLsbD p = (s.gpio.intPend.getLsbD p ||
        (decide (p ≤ s.params.pinMax) && (s.padLevel p && !s.gpio.inPrev.getLsbD p &&
          (!s.params.pendGated || s.gpio.intEn.getLsbD p))))) ∧
      ∀ e, e ∈ es ↔ ∃ p, p < 32 ∧ p ≤ s.params.pinMax ∧ s.padLevel p = true ∧ s.gpio.inPrev.getLsbD p = false ∧
        e = .edge p) ∧
  ∀ (sched : Nat → Move) (run : Nat → State), Runs sched run → DetectorFair sched →
    ∀ (n p : Nat) (level : Bool), p < 32 → p ≤ (run n).params.pinMax → (∀ m, n ≤ m → (run m).padLevel p = level) →
      ∃ m, n < m ∧ (run m).gpio.inPrev.getLsbD p = level ∧
        (level = true → (run n).gpio.inPrev.getLsbD p = false → .edge p ∈ (run m).history)

/-- 41_gpio.md R189, for every step of the machine: GPIO.DIR, GPIO.OUT and GPIO.INT_EN change only by the instructions (or the
read-modify-write statements) that write them, a pending flag goes from 0 to 1 only by the edge detector and from 1 to 0 only
by a clear. -/
def Obligations.GpioRegistersChangeOnlyByTheirInstructions : Prop :=
  ∀ s t : State, step s = .next t →
    (t.gpio.dir ≠ s.gpio.dir →
      (∃ v w, ∃ i ∈ [Instr.wrGpioDir v, .gpioSetDirMask v, .gpioSetDir v w], turn s = .instr i) ∨
        ∃ c b, turn s = .rmw .gpioDir c b) ∧
    (t.gpio.out ≠ s.gpio.out →
      (∃ v w, ∃ i ∈ [Instr.wrGpioOut v, .gpioWrite v, .gpioSetPin v, .gpioClearPin v, .gpioTogglePin v,
          .gpioWritePin v w, .gpioSetAll, .gpioClearAll, .gpioToggleAll], turn s = .instr i) ∨
        ∃ c b, turn s = .rmw .gpioOut c b) ∧
    (t.gpio.intEn ≠ s.gpio.intEn →
      (∃ v, ∃ i ∈ [Instr.wrGpioIntEn v, .gpioIntEnable v, .gpioIntDisable v], turn s = .instr i) ∨
        ∃ c b, turn s = .rmw .gpioIntEn c b) ∧
    (∀ p, s.gpio.intPend.getLsbD p = false → t.gpio.intPend.getLsbD p = true → turn s = .device .detect) ∧
    ∀ p, s.gpio.intPend.getLsbD p = true → t.gpio.intPend.getLsbD p = false →
      (∃ v, turn s = .instr (.wrGpioIntClr v) ∧ v.getLsbD p = true) ∨
        (∃ pin, turn s = .instr (.gpioIntClear pin) ∧ p = pin.toNat) ∨ ∃ c b, turn s = .rmw .gpioIntClr c b

/-! ### Interrupt dispatcher (42_irq_dispatcher.md) and traps (60_exceptions.md) -/

/-- 42_irq_dispatcher.md R200, 70_reset_and_hazards.md R429: IRQ.INIT zeroes the sixteen entries one micro-step at a time, the
rest of the table, the vector and the dispatcher's state as they were; its seventeenth micro-step writes the vector and arms
the dispatcher; no other register changes. -/
def Obligations.IrqInitZeroesTableThenArms : Prop :=
  ∀ (s : State) (entry : Word), s.cur.phase = .idle →
    (∃ u, exec (.irqInit entry) s = .next u) ∧
    (∀ k, k ≤ 16 → ∃ u : State, perform (.irqInit entry) k s = .next u ∧ u.disp.state = s.disp.state ∧ u.csr = s.csr ∧
      u.cur.prog = s.cur.prog ∧ ∀ n, n < 16 → u.handlerOf n = if n < k then 0#32 else s.handlerOf n) ∧
    perform (.irqInit entry) 17 s = .next (({ s with
      disp := { state := .armed, table := Vector.replicate 16 0#32 }
      csr := { s.csr with mtvec := entry } } : State).finish none)

/-- 42_irq_dispatcher.md R201: IRQ.REGISTER binds the handler to a number below 16, silently over the old one, and returns OK;
for any other number it returns ERROR and changes nothing; no handler is called. -/
def Obligations.IrqRegisterBindsOneEntry : Prop :=
  ∀ (s : State) (n h : Word), s.disp.state = .armed →
    (n.toNat < 16 → ∃ t : State, exec (.irqRegister n h) s = .next (t.finish (some 0#32)) ∧
      t = { s with disp := { s.disp with table := t.disp.table } } ∧
      ∀ m, m < 16 → t.handlerOf m = if m = n.toNat then h else s.handlerOf m) ∧
    (16 ≤ n.toNat → exec (.irqRegister n h) s = .next (s.finish (some 0xFFFFFFFF#32)))

/-- 42_irq_dispatcher.md R202, armed: an exception cause, a code past the table and an unbound number return at once and
change nothing; a bound number logs the call, leaves the operation at its return and runs that number's handler; when the
handler has ended the operation logs the return and ends. -/
def Obligations.IrqDispatchCallsTheBoundHandler : Prop :=
  ∀ (s : State) (cause : Word), s.disp.state = .armed →
    (s.cur.phase = .idle →
      (cause.getLsbD 31 = false ∨ 16 ≤ cause.toNat % 2 ^ 31 ∨ s.handlerOf (cause.toNat % 2 ^ 31) = 0#32 →
        exec (.irqDispatch cause) s = .next (s.finish none)) ∧
      (cause.getLsbD 31 = true → cause.toNat % 2 ^ 31 < 16 → s.handlerOf (cause.toNat % 2 ^ 31) ≠ 0#32 →
        ∃ u : State, exec (.irqDispatch cause) s = .next u ∧
          u = { s with
            history := s.history ++ [.handlerCall (cause.toNat % 2 ^ 31) (s.handlerOf (cause.toNat % 2 ^ 31))]
            susp := { s.cur with phase := .irqReturn, loc := { Locals.none with idx := cause.toNat % 2 ^ 31 } } :: s.susp
            cur := u.cur } ∧
          u.cur.kind = .handler (cause.toNat % 2 ^ 31) (s.handlerOf (cause.toNat % 2 ^ 31)) ∧
          u.cur.prog = handlerBody s.params (s.handlerOf (cause.toNat % 2 ^ 31)) ∧ u.cur.phase = .idle)) ∧
    (s.cur.phase = .irqReturn →
      exec (.irqDispatch cause) s = .next ((s.emit [.handlerReturn s.cur.loc.idx]).finish none))

/-- 42_irq_dispatcher.md R203: a handler with nothing left to run gives control back to its caller, as the caller stood. -/
def Obligations.HandlerEndReturnsToItsCaller : Prop :=
  ∀ (s : State) (n : Nat) (h : Word) (f : Frame) (fs : List Frame), s.HostToMove → pendingInterrupt s = none →
    s.cur.kind = .handler n h → s.cur.prog = [] → s.cur.raising = none → s.susp = f :: fs →
    step s = .next { s with cur := f, susp := fs, moves := s.moves.tail }

/-- 42_irq_dispatcher.md R211, R202: before IRQ.INIT the four operations that need it are refused and IRQ.DISPATCH faults with
the cause; nothing of them happens. -/
def Obligations.IrqUseBeforeInitStops : Prop :=
  ∀ (s : State) (a b : Word), s.disp.state = .uninitialized →
    (∀ i ∈ [Instr.irqRegister a b, .irqGlobalEnable, .irqEnableTimer, .irqEnableExternal],
      exec i s = .refused .useBeforeInit) ∧
    (s.cur.phase = .idle → exec (.irqDispatch a) s = .fault (.trapUninitialized a))

/-- 42_irq_dispatcher.md R204, R206, R207, 40_register_access.md R146: the enable operations read, write with their one bit
set, and return, in three micro-steps; the bit is in effect before the return; no other bit and nothing else changes. -/
def Obligations.IrqEnablesTakeEffectBeforeReturn : Prop :=
  ∀ s : State, s.cur.phase = .idle → s.disp.state = .armed →
    ∀ row ∈ [(Instr.irqGlobalEnable, { s.csr with mstatusMIE := true }),
        (.irqEnableTimer, { s.csr with mie := setBit s.csr.mie 7 true }),
        (.irqEnableExternal, { s.csr with mie := setBit s.csr.mie 11 true })],
      ∃ u v : State,
        exec row.1 s = .next u ∧ exec row.1 u = .next v ∧
        u.csr = s.csr ∧ v.csr = row.2 ∧ v.cur.prog = s.cur.prog ∧ v.cur.result = s.cur.result ∧
        exec row.1 v = .next (({ s with csr := row.2, draws := s.draws.next } : State).finish none)

/-- 42_irq_dispatcher.md R205, R208, R209, 40_register_access.md R146: the disable operations read, then write with their one
bit clear, in two micro-steps, whether or not the dispatcher is initialised; no other bit and nothing else changes. -/
def Obligations.IrqDisablesClearOneBit : Prop :=
  ∀ s : State, s.cur.phase = .idle →
    ∀ row ∈ [(Instr.irqGlobalDisable, { s.csr with mstatusMIE := false }),
        (.irqDisableTimer, { s.csr with mie := setBit s.csr.mie 7 false }),
        (.irqDisableExternal, { s.csr with mie := setBit s.csr.mie 11 false })],
      ∃ u : State, exec row.1 s = .next u ∧ u.csr = s.csr ∧
        exec row.1 u = .next (({ s with csr := row.2, draws := s.draws.next } : State).finish none)

/-- 60_exceptions.md R373 to R377: when MIE is 1 and the external interrupt (GPIO request, bit 11) or else the timer interrupt
(MTIME at or past MTIMECMP, bit 7) is enabled and pending, the host's move is trap entry, external first: mepc, mcause, MPIE,
MIE, the depth and the event as R377 writes them, control to mtvec, and nothing else changes. -/
def Obligations.PendingInterruptIsTakenExternalFirst : Prop :=
  ∀ (s : State) (n : Nat), s.HostToMove → s.disp.state = .armed → s.trapDepth = 0 → s.csr.mstatusMIE = true →
    (n = 11 ∧ s.csr.mie.getLsbD 11 = true ∧ gpioIrq s = true ∨
      n = 7 ∧ s.csr.mie.getLsbD 7 = true ∧ s.timer.mtimecmp.toNat ≤ s.timer.mtime.toNat ∧
        (s.csr.mie.getLsbD 11 = false ∨ gpioIrq s = false)) →
    step s = .next { s with
      csr := { s.csr with
        mepc := { depth := s.susp.length, left := s.cur.prog.length, phase := s.cur.phase }
        mcause := BitVec.ofNat 32 (2 ^ 31 + n)
        mstatusMPIE := true
        mstatusMIE := false }
      trapDepth := 1
      history := s.history ++ [.trapTaken (BitVec.ofNat 32 (2 ^ 31 + n))]
      susp := s.cur :: s.susp
      cur := stubFrame s.csr.mtvec
      moves := s.moves.tail }

/-- 60_exceptions.md R375, R377, R380, R387: with an interrupt to take, the host's move faults before IRQ.INIT and is refused
inside a trap; and with MIE 0, or nothing both enabled and pending, no interrupt is taken. -/
def Obligations.TrapEntryStopsOrIsNotDue : Prop :=
  (∀ (s : State) (n : Nat), s.HostToMove → pendingInterrupt s = some n →
    (s.disp.state = .uninitialized → step s = .fault (.trapUninitialized (irqCause n))) ∧
    (s.disp.state = .armed → 1 ≤ s.trapDepth → step s = .refused .nestedTrap)) ∧
  ∀ s : State,
    (s.csr.mstatusMIE = false ∨
      ((s.csr.mie.getLsbD 11 = false ∨ gpioIrq s = false) ∧
        (s.csr.mie.getLsbD 7 = false ∨ s.timer.mtime.toNat < s.timer.mtimecmp.toNat))) ↔
    pendingInterrupt s = none

/-- 60_exceptions.md R378, R379: the entry stub, its interrupts off, reads the cause and then holds IRQ.DISPATCH of it; with
nothing left to run it returns: MIE from MPIE, MPIE 1, one trap level less, and the interrupted context (the one that mepc
names) goes on exactly as it stood. -/
def Obligations.EntryStubDispatchesThenReturns : Prop :=
  ∀ (s : State) (entry : Word), s.HostToMove → s.csr.mstatusMIE = false → s.cur.kind = .stub entry → s.cur.prog = [] →
    s.cur.raising = none →
    (s.cur.phase = .stubEntry → ∃ q : Request,
      requestTurn s.params q = .instr (.irqDispatch s.csr.mcause) ∧
      step s = .next { s with
        cur := { s.cur with prog := [q], phase := .idle, loc := Locals.none }
        draws := s.draws.next
        moves := s.moves.tail }) ∧
    (s.cur.phase ≠ .stubEntry → ∀ (g : Frame) (rest : List Frame), s.susp = g :: rest → rest.length = s.csr.mepc.depth →
      step s = .next { s with
        csr := { s.csr with mstatusMIE := s.csr.mstatusMPIE, mstatusMPIE := true }
        trapDepth := s.trapDepth - 1
        cur := g
        susp := rest
        moves := s.moves.tail })

/-- 60_exceptions.md R371: an exception of the host core traps like an interrupt with the interrupt flag clear, is ignored by
the dispatcher and returns to what raised it: four steps later the context stands as it stood, with the exception to raise
again. -/
def Obligations.ExceptionIsIgnoredAndRaisedAgain : Prop :=
  ∀ (s : State) (code : BitVec 31), s.faulted = none → s.refused = none → s.moves = [] → pendingInterrupt s = none →
    s.disp.state = .armed → s.trapDepth = 0 → s.cur.raising = some code →
    ∃ a b c d : State, step s = .next a ∧ step a = .next b ∧ step b = .next c ∧ step c = .next d ∧
      d = { s with
        csr := { s.csr with
          mepc := { depth := s.susp.length, left := s.cur.prog.length, phase := s.cur.phase }
          mcause := code.setWidth 32
          mstatusMPIE := true }
        history := s.history ++ [.trapTaken (code.setWidth 32)]
        draws := s.draws.next }

/-- 42_irq_dispatcher.md R204: the interrupt that IRQ.GLOBAL_ENABLE enables is taken before the operation's return micro-step:
the trap finds the operation not yet returned. -/
def Obligations.GlobalEnableIsInterruptedBeforeReturn : Prop :=
  ∀ (s : State) (q : Request) (qs : List Request), s.faulted = none → s.refused = none → s.moves = [] →
    s.disp.state = .armed → s.trapDepth = 0 → s.csr.mstatusMIE = false → s.cur.raising = none → s.cur.prog = q :: qs →
    requestTurn s.params q = .instr .irqGlobalEnable → s.cur.phase = .csrWrite →
    (s.csr.mie.getLsbD 11 = true ∧ gpioIrq s = true ∨
      s.csr.mie.getLsbD 7 = true ∧ s.timer.mtimecmp.toNat ≤ s.timer.mtime.toNat) →
    ∃ u v : State, step s = .next u ∧ step u = .next v ∧ u.csr.mstatusMIE = true ∧ u.cur.prog = q :: qs ∧
      v.susp = u.cur :: s.susp ∧ v.csr.mepc.phase = .ret ∧ v.csr.mepc.left = qs.length + 1 ∧ v.trapDepth = 1

/-! ### SPI (43_spi.md) -/

/-- 43_spi.md R230, R232 to R235 and 44_i2c.md R280, R288, R289, R293, reads: the status words show the devices' flags at
their bits (I2C's BUSY is "owned, or held by another, or a phase in flight") and free values elsewhere, the data registers
return what they hold, the write-only registers return a free value; no read changes any device. -/
def Obligations.SpiAndI2cReadsChangeNothing : Prop :=
  ∀ s : State, s.params.Valid →
    (∃ v : Word,
      (∀ row ∈ [(s.params.spiBusyBit, s.spi.busy), (s.params.spiDoneBit, s.spi.done)], v.getLsbD row.1 = row.2) ∧
      (∀ b, b < 32 → b ∉ [s.params.spiBusyBit, s.params.spiDoneBit] → v.getLsbD b = s.draws.head.getLsbD b) ∧
      exec .rdSpiStatus s = .next (((s.emit [.regRd .spiStatus v]).takeDraw).finish (some v))) ∧
    (∃ v : Word,
      (∀ row ∈ [(s.params.i2cBusyBit, s.i2c.own || s.i2c.extBusy || s.i2c.cmd.isSome), (s.params.i2cAckBit, s.i2c.ack),
          (s.params.i2cArbLostBit, s.i2c.arbLost), (s.params.i2cDoneBit, s.i2c.done), (s.params.i2cErrorBit, s.i2c.error)],
        v.getLsbD row.1 = row.2) ∧
      (∀ b, b < 32 → b ∉ [s.params.i2cBusyBit, s.params.i2cAckBit, s.params.i2cArbLostBit, s.params.i2cDoneBit,
          s.params.i2cErrorBit] → v.getLsbD b = s.draws.head.getLsbD b) ∧
      exec .rdI2cStatus s = .next (((s.emit [.regRd .i2cStatus v]).takeDraw).finish (some v))) ∧
    ∀ row ∈ [(Instr.rdSpiRxdata, Reg.spiRxdata, s.spi.rxdata), (.rdSpiConfig, .spiConfig, s.spi.config),
        (.rdSpiCtrl, .spiCtrl, s.draws.head), (.rdSpiTxdata, .spiTxdata, s.draws.head),
        (.rdI2cData, .i2cData, s.i2c.data), (.rdI2cPrescale, .i2cPrescale, s.i2c.prescale),
        (.rdI2cCtrl, .i2cCtrl, s.draws.head)],
      exec row.1 s = .next (((s.emit [.regRd row.2.1 row.2.2]).takeDraw).finish (some row.2.2))

/-- 43_spi.md R230, R231, R235, R241 to R243: with no unit in flight, TXDATA and CONFIG hold the whole word written; a command
word, written to CTRL or as SPI.START8, START16, START32, puts the low bits of TXDATA in flight, DONE 0 and BUSY 1, in one
micro-step; any other word is refused; nothing else changes. -/
def Obligations.SpiCommandStartsOneUnit : Prop :=
  ∀ (s : State) (v : Word), s.params.Valid → s.spi.inflight = none →
    exec (.wrSpiTxdata v) s = .next ((({ s with spi := { s.spi with txdata := v } } : State).emit
      [.regWr .spiTxdata v]).finish none) ∧
    exec (.wrSpiConfig v) s = .next ((({ s with spi := { s.spi with config := v } } : State).emit
      [.regWr .spiConfig v]).finish none) ∧
    (∀ row ∈ [(Instr.spiStart8, s.params.spiStart8, SpiWidth.w8, s.spi.txdata.setWidth 8 |>.setWidth 32),
        (.wrSpiCtrl s.params.spiStart8, s.params.spiStart8, .w8, s.spi.txdata.setWidth 8 |>.setWidth 32),
        (.spiStart16, s.params.spiStart16, .w16, s.spi.txdata.setWidth 16 |>.setWidth 32),
        (.wrSpiCtrl s.params.spiStart16, s.params.spiStart16, .w16, s.spi.txdata.setWidth 16 |>.setWidth 32),
        (.spiStart32, s.params.spiStart32, .w32, s.spi.txdata), (.wrSpiCtrl s.params.spiStart32, s.params.spiStart32, .w32,
          s.spi.txdata)],
      exec row.1 s = .next ((({ s with spi := { s.spi with
        inflight := some { width := row.2.2.1, value := row.2.2.2 }, done := false, busy := true } } : State).emit
          [.regWr .spiCtrl row.2.1]).finish none)) ∧
    (v ∉ [s.params.spiStart8, s.params.spiStart16, s.params.spiStart32] →
      exec (.wrSpiCtrl v) s = .refused .illegalCommand)

/-- 43_spi.md R237, 70_reset_and_hazards.md R428: a write of TXDATA, CTRL or CONFIG with a unit in flight faults, naming the
register; so SPI.SET_DIV and SPI.SET_MODE read CONFIG and then fault. -/
def Obligations.SpiWriteInFlightIsOverrun : Prop :=
  ∀ (s : State) (v : Word), s.spi.inflight.isSome = true →
    exec (.wrSpiTxdata v) s = .fault (.spiOverrun .spiTxdata) ∧
    exec (.wrSpiConfig v) s = .fault (.spiOverrun .spiConfig) ∧
    (∀ i ∈ [Instr.wrSpiCtrl v, .spiStart8, .spiStart16, .spiStart32], exec i s = .fault (.spiOverrun .spiCtrl)) ∧
    ∀ i ∈ [Instr.spiSetDiv v, .spiSetMode v],
      (s.cur.phase = .idle → ∃ u, exec i s = .next u ∧ exec i u = .fault (.spiOverrun .spiConfig)) ∧
      (s.cur.phase = .rmwWrite → exec i s = .fault (.spiOverrun .spiConfig))

/-- 43_spi.md R236, R238: the engine's step ends the unit in flight with any answer of its width: RXDATA, BUSY 0, DONE 1, one
event; with none in flight the step changes nothing (notes/assumptions/17.md). -/
def Obligations.SpiEngineExchangesOneUnit : Prop :=
  ∀ (s : State) (answer : Word) (ms : List Move), s.faulted = none → s.refused = none → s.moves = .spi answer :: ms →
    (s.spi.inflight = none → step s = .next { s with moves := ms }) ∧
    ∀ u, s.spi.inflight = some u → ∃ r : Word,
      (∀ b, b < 32 → r.getLsbD b = (decide (b < SpiWidth.bits u.width) && answer.getLsbD b)) ∧
      step s = .next { s with
        spi := { s.spi with rxdata := r, inflight := none, busy := false, done := true }
        history := s.history ++ [.spiUnit u.width u.value r]
        moves := ms }

/-- 43_spi.md R244 to R247: SPI.XFER8, XFER16 and XFER32 write TXDATA, write the command word, poll DONE however often until
the engine has answered, read RXDATA and return the answer; one unit goes out and comes in; no memory and nothing but the SPI
registers changes. A loopback peripheral returns what was sent: the operand, or a free unit where the operand is wider than
the unit (notes/assumptions/26.md). -/
def Obligations.SpiTransferReturnsTheAnswer : Prop :=
  ∀ (s : State) (tx answer : Word) (k : Nat), s.params.Valid → s.cur.phase = .idle → s.spi.inflight = none →
    ∀ row ∈ [(Instr.spiXfer8 tx, SpiWidth.w8), (.spiXfer16 tx, .w16), (.spiXfer32 tx, .w32)],
      (∃ u, exec row.1 s = .next u) ∧
      ∃ (sent : Word) (t : State) (es : List Event),
        sent.toNat < 2 ^ SpiWidth.bits row.2 ∧ (tx.toNat < 2 ^ SpiWidth.bits row.2 → sent = tx) ∧
        play row.1 ([.host, .host] ++ List.replicate k .host ++ [.spi answer, .host, .host]) s = .next t ∧
        t = ({ s with
          spi := { s.spi with
            txdata := sent, rxdata := unitOf row.2 answer, inflight := none, busy := false, done := true }
          history := s.history ++ es
          draws := t.draws } : State).finish (some (unitOf row.2 answer)) ∧
        es.filter (fun e => match e with | .regRd _ _ => false | _ => true) =
          [.regWr .spiTxdata sent, .regWr .spiCtrl (s.params.spiStart row.2), .spiUnit row.2 sent (unitOf row.2 answer)] ∧
        (answer = sent → t.cur.result = some sent)

/-- 43_spi.md R258, 40_register_access.md R142: without the engine's step a unit transfer polls for ever: after any number of
turns it has not returned and the unit is still in flight. -/
def Obligations.SpiTransferWaitsForDone : Prop :=
  ∀ (s : State) (tx : Word) (k : Nat), s.params.Valid → s.cur.phase = .idle → s.spi.inflight = none →
    ∀ i ∈ [Instr.spiXfer8 tx, .spiXfer16 tx, .spiXfer32 tx],
      ∃ t : State, play i ([.host, .host] ++ List.replicate k .host) s = .next t ∧ t.spi.inflight.isSome = true ∧
        t.cur.prog = s.cur.prog ∧ t.cur.result = s.cur.result

/-- 43_spi.md R248 to R250, 20_memory.md R76, R84: with N not above zero, read signed, the multi-unit transfers return ERROR
and touch no register and no memory. A buffer that reaches into a register window is refused, at the first micro-step by the
model's choice (notes/assumptions/11.md); a buffer not aligned to the unit is refused at its first load or store. -/
def Obligations.SpiMultiUnitChecksItsOperands : Prop :=
  ∀ (s : State) (txbuf rxbuf : Option Word) (count : Word),
    ∀ row ∈ [(Instr.spiXfern8 txbuf rxbuf count, SpiWidth.w8), (.spiXfern16 txbuf rxbuf count, .w16),
        (.spiXfern32 txbuf rxbuf count, .w32)],
      (s.cur.phase = .idle → count.toInt ≤ 0 → exec row.1 s = .next (s.finish (some 0xFFFFFFFF#32))) ∧
      (∀ (a : Word) (x : Nat), s.cur.phase = .idle → 0 < count.toInt → txbuf = some a ∨ rxbuf = some a →
        a.toNat ≤ x → x < a.toNat + count.toNat * SpiWidth.bytes row.2 →
        (∃ win ∈ s.params.bases.windows, win.1 ≤ x ∧ x < win.1 + win.2) → exec row.1 s = .refused .misalignedBuffer) ∧
      (∀ a, s.cur.phase = .idle ∧ 0 < count.toInt ∨ s.cur.phase = .spiUnit → txbuf = some a →
        a.toNat % SpiWidth.bytes row.2 ≠ 0 → exec row.1 s = .refused .misalignedBuffer) ∧
      (∀ a, s.cur.phase = .spiStore → rxbuf = some a → a.toNat % SpiWidth.bytes row.2 ≠ 0 →
        exec row.1 s = .refused .misalignedBuffer)

/-- 43_spi.md R248 to R250, 20_memory.md R75: unit `i` of a multi-unit transfer, from its first micro-step (the operation's
own for unit 0): the unit loaded from the transmit buffer, its lowest byte first, or the fill value, is exchanged for the
peripheral's answer; the answer is stored likewise at its place in the receive buffer, every other byte as it was, or dropped;
then the next unit begins, or OK is returned. -/
def Obligations.SpiMultiUnitExchangesEachUnit : Prop :=
  ∀ (s : State) (w : SpiWidth) (txbuf rxbuf : Option Word) (count answer : Word) (i : Nat), s.params.Valid →
    s.spi.inflight = none → (i : Int) < count.toInt →
    (s.cur.phase = .idle ∧ i = 0 ∧
        bufferOverlaps s.params.bases txbuf (count.toNat * SpiWidth.bytes w) = false ∧
        bufferOverlaps s.params.bases rxbuf (count.toNat * SpiWidth.bytes w) = false ∨
      s.cur.phase = .spiUnit ∧ s.cur.loc.idx = i) →
    (∀ a, txbuf = some a ∨ rxbuf = some a →
      a.toNat % SpiWidth.bytes w = 0 ∧ a.toNat + (i + 1) * SpiWidth.bytes w ≤ 2 ^ 32) →
    ∀ op, op = (match w with
        | .w8 => Instr.spiXfern8 txbuf rxbuf count
        | .w16 => .spiXfern16 txbuf rxbuf count
        | .w32 => .spiXfern32 txbuf rxbuf count) →
      ∃ (t : State) (es : List Event),
        (∃ u, exec op s = .next u) ∧
        play op ((if txbuf.isSome then [.host] else []) ++ [.host, .host, .spi answer, .host, .host] ++
          (if rxbuf.isSome then [.host] else [])) s = .next t ∧
        t = { s with
          spi := t.spi
          mem := t.mem
          history := s.history ++ es
          draws := t.draws
          cur := t.cur } ∧
        t.spi.inflight = none ∧
        (∀ b, rxbuf = some b →
          t.mem = s.mem.store (b.toNat + i * SpiWidth.bytes w) w (unitOf w answer) ∧
          (s.mem.wf → ∀ k, k < SpiWidth.bytes w →
            t.mem.read (b.toNat + i * SpiWidth.bytes w + k) = answer.extractLsb' (8 * k) 8) ∧
          ∀ x, x < b.toNat + i * SpiWidth.bytes w ∨ b.toNat + (i + 1) * SpiWidth.bytes w ≤ x →
            t.mem.read x = s.mem.read x) ∧
        (rxbuf = none → t.mem = s.mem) ∧
        (∃ sent : Word,
          (∀ a, txbuf = some a → sent.toNat < 2 ^ SpiWidth.bits w ∧ ∀ k, k < SpiWidth.bytes w →
            sent.extractLsb' (8 * k) 8 = s.mem.read (a.toNat + i * SpiWidth.bytes w + k)) ∧
          (txbuf = none → sent = widthMask w) ∧ .spiUnit w sent (unitOf w answer) ∈ es) ∧
        t.cur.kind = s.cur.kind ∧ t.cur.raising = s.cur.raising ∧
        ((i : Int) + 1 < count.toInt → t.cur.phase = .spiUnit ∧ t.cur.loc.idx = i + 1 ∧ t.cur.prog = s.cur.prog) ∧
        (count.toInt = (i : Int) + 1 →
          t.cur.phase = .idle ∧ t.cur.result = some 0#32 ∧ t.cur.prog = s.cur.prog.tail)

/-- 43_spi.md R251: SPI.BURST reads CONFIG, then with a divider that is neither recognised value, or a length that is no
multiple of the bound width (2 bytes for one value, 4 for the other), returns ERROR with no register written; with a buffer
not aligned to the width it is refused (R76), and so is one that reaches into a register window (20_memory.md R84; when,
notes/assumptions/11.md). The checks stand in a micro-step of their own (notes/assumptions/13.md). -/
def Obligations.SpiBurstChecksBeforeAnyWrite : Prop :=
  ∀ (s : State) (buf len : Word), s.cur.phase = .idle →
    ∃ u : State, exec (.spiBurst buf len) s = .next u ∧
      u = ((s.emit [.regRd .spiConfig s.spi.config]).takeDraw).goTo .burstUnit { Locals.none with v := s.spi.config } ∧
      (fieldValue s.params.spiDivLsb s.params.spiDivW s.spi.config ∉ [s.params.burstDivW2, s.params.burstDivW4] →
        exec (.spiBurst buf len) u = .next (u.finish (some 0xFFFFFFFF#32))) ∧
      ∀ w, (w = .w16 ∧ fieldValue s.params.spiDivLsb s.params.spiDivW s.spi.config = s.params.burstDivW2 ∨
          w = .w32 ∧ fieldValue s.params.spiDivLsb s.params.spiDivW s.spi.config = s.params.burstDivW4 ∧
            s.params.burstDivW4 ≠ s.params.burstDivW2) →
        (len.toNat % SpiWidth.bytes w ≠ 0 → exec (.spiBurst buf len) u = .next (u.finish (some 0xFFFFFFFF#32))) ∧
        (len.toNat % SpiWidth.bytes w = 0 → buf.toNat % SpiWidth.bytes w ≠ 0 →
          exec (.spiBurst buf len) u = .refused .misalignedBuffer) ∧
        (∀ x, len.toNat % SpiWidth.bytes w = 0 → buf.toNat ≤ x → x < buf.toNat + len.toNat →
          (∃ win ∈ s.params.bases.windows, win.1 ≤ x ∧ x < win.1 + win.2) →
            exec (.spiBurst buf len) u = .refused .misalignedBuffer) ∧
        (len = 0#32 → buf.toNat % SpiWidth.bytes w = 0 → s.params.burstFinalWait = false →
          exec (.spiBurst buf len) u = .next (u.finish (some 0#32)))

/-- 43_spi.md R251, R256, R237: unit `i` of a burst is loaded, written to TXDATA and started, with no wait; the next unit's
TXDATA write faults if the engine has not yet answered; after the last unit the burst returns OK, in a micro-step of its own
by the model's choice (notes/assumptions/13.md), or with SPI_BURST_FINAL_WAIT polls until DONE reads 1 and then returns it;
memory never changes. And with the premise SPI_BURST_ABSORBS (R256), in any run from a quiet engine with interrupts off,
whatever the other agents do (notes/assumptions/36.md): the machine does not stop while the burst runs; after `h` host moves
the units sent, with the one still in flight, are the buffer's first `(h - 1) / 3` in order, so that at its end they are
exactly its `len / W`; and with no final wait the burst returns OK at its last micro-step. -/
def Obligations.SpiBurstWritesUnitsBackToBack : Prop :=
  (∀ (s : State) (buf len : Word) (w : SpiWidth) (i : Nat), s.params.Valid →
    s.cur.phase = .burstUnit → s.cur.loc.idx = i →
    (w = .w16 ∧ fieldValue s.params.spiDivLsb s.params.spiDivW s.cur.loc.v = s.params.burstDivW2 ∨
      w = .w32 ∧ fieldValue s.params.spiDivLsb s.params.spiDivW s.cur.loc.v = s.params.burstDivW4) →
    len.toNat % SpiWidth.bytes w = 0 → buf.toNat % SpiWidth.bytes w = 0 →
    overlapsWindow s.params.bases buf.toNat len.toNat = false → buf.toNat + len.toNat ≤ 2 ^ 32 →
    (len.toNat = i * SpiWidth.bytes w → s.params.burstFinalWait = false →
      exec (.spiBurst buf len) s = .next (s.finish (some 0#32))) ∧
    (len.toNat = i * SpiWidth.bytes w → s.params.burstFinalWait = true →
      ∀ p ∈ [Phase.burstUnit, .burstPoll], ∃ v : Word,
        exec (.spiBurst buf len) (s.goTo p s.cur.loc) = .next (if s.spi.done
          then ((s.emit [.regRd .spiStatus v]).takeDraw).finish (some 0#32)
          else ((s.emit [.regRd .spiStatus v]).takeDraw).goTo .burstPoll s.cur.loc)) ∧
    (∀ k, k < SpiWidth.bytes w → (s.mem.load (buf.toNat + i * SpiWidth.bytes w) w).extractLsb' (8 * k) 8 =
      s.mem.read (buf.toNat + i * SpiWidth.bytes w + k)) ∧
    (i * SpiWidth.bytes w < len.toNat → ∃ u : State, exec (.spiBurst buf len) s = .next u ∧
      u = s.goTo .burstTx { s.cur.loc with unit := s.mem.load (buf.toNat + i * SpiWidth.bytes w) w } ∧
      (s.spi.inflight.isSome = true → exec (.spiBurst buf len) u = .fault (.spiOverrun .spiTxdata)) ∧
      (s.spi.inflight = none → perform (.spiBurst buf len) 2 u = .next (({ s with
        spi := { s.spi with
          txdata := s.mem.load (buf.toNat + i * SpiWidth.bytes w) w
          inflight := some { width := w, value := s.mem.load (buf.toNat + i * SpiWidth.bytes w) w }
          done := false
          busy := true }
        history := s.history ++ [.regWr .spiTxdata (s.mem.load (buf.toNat + i * SpiWidth.bytes w) w),
          .regWr .spiCtrl (s.params.spiStart w)] } : State).goTo .burstUnit
            { s.cur.loc with unit := s.mem.load (buf.toNat + i * SpiWidth.bytes w) w, idx := i + 1 })))) ∧
  ∀ (sched : Nat → Move) (run : Nat → State) (buf len : Word) (w : SpiWidth) (n : Nat),
    RunsOrStops sched run → SpiBurstAbsorbs sched run → (∀ k code, sched k ≠ .raise code) →
    (run 0).params.Valid → ¬(run 0).Stopped → (run 0).csr.mstatusMIE = false → (run 0).spi.inflight = none →
    (run 0).cur.raising = none → (run 0).cur.phase = .idle →
    ((run 0).cur.prog.head?.map (requestTurn (run 0).params)) = some (.instr (.spiBurst buf len)) →
    (w = .w16 ∧ fieldValue (run 0).params.spiDivLsb (run 0).params.spiDivW (run 0).spi.config = (run 0).params.burstDivW2 ∨
      w = .w32 ∧ fieldValue (run 0).params.spiDivLsb (run 0).params.spiDivW (run 0).spi.config = (run 0).params.burstDivW4) →
    len.toNat % SpiWidth.bytes w = 0 → buf.toNat % SpiWidth.bytes w = 0 →
    overlapsWindow (run 0).params.bases buf.toNat len.toNat = false → buf.toNat + len.toNat ≤ 2 ^ 32 →
    hostMoves sched n ≤ 3 * (len.toNat / SpiWidth.bytes w) + (if (run 0).params.burstFinalWait then 1 else 2) →
    ¬(run n).Stopped ∧ (run n).mem = (run 0).mem ∧
    (∃ es, (run n).history = (run 0).history ++ es ∧ spiUnits es ++ (run n).spi.inflight.toList =
      (List.range ((hostMoves sched n - 1) / 3)).map fun k =>
        { width := w, value := (run 0).mem.load (buf.toNat + k * SpiWidth.bytes w) w }) ∧
    (hostMoves sched n = 3 * (len.toNat / SpiWidth.bytes w) + 2 →
      (run n).cur.phase = .idle ∧ (run n).cur.result = some 0#32 ∧ (run n).cur.prog = (run 0).cur.prog.tail)

/-- 43_spi.md R252, R253: SPI.SET_DIV, `OP` 0x47, and SPI.SET_MODE, `OP` 0x48, read CONFIG, then rewrite their own field with
the low bits of the operand; every other bit of CONFIG, and everything else, stays. (With a unit in flight the write faults:
SpiWriteInFlightIsOverrun.) -/
def Obligations.SpiSettersRewriteTheirOwnField : Prop :=
  ∀ (s : State) (x : Word), s.params.Valid → s.cur.phase = .idle → s.spi.inflight = none →
    decodeCode 0x47 x 0#32 0#32 0#32 = some (.spiSetDiv x, 1) ∧
    decodeCode 0x48 x 0#32 0#32 0#32 = some (.spiSetMode x, 1) ∧
    ∀ row ∈ [(Instr.spiSetDiv x, s.params.spiDivLsb, s.params.spiDivW),
        (.spiSetMode x, s.params.spiModeLsb, s.params.spiModeW)],
      ∃ (c : Word) (u : State),
        (∀ b, b < 32 → c.getLsbD b =
          if row.2.1 ≤ b ∧ b < row.2.1 + row.2.2 then x.getLsbD (b - row.2.1) else s.spi.config.getLsbD b) ∧
        exec row.1 s = .next u ∧
        u = ((s.emit [.regRd .spiConfig s.spi.config]).takeDraw).goTo .rmwWrite { Locals.none with v := s.spi.config } ∧
        exec row.1 u = .next ((({ u with spi := { s.spi with config := c } } : State).emit
          [.regWr .spiConfig c]).finish none)

/-! ### I2C (44_i2c.md) -/

/-- 44_i2c.md R280, R289, R314: with no phase in flight a write of DATA stores its low byte, and a write of PRESCALE, by
register access or by I2C.SET_PRESCALE, stores the word; nothing else changes. -/
def Obligations.I2cDataAndPrescaleWritesStore : Prop :=
  ∀ (s : State) (v : Word), s.i2c.cmd = none →
    (∃ d : Word, d.toNat = v.toNat % 256 ∧
      exec (.wrI2cData v) s = .next ((({ s with i2c := { s.i2c with data := d } } : State).emit
        [.regWr .i2cData v]).finish none)) ∧
    ∀ i ∈ [Instr.wrI2cPrescale v, .i2cSetPrescale v],
      exec i s = .next ((({ s with i2c := { s.i2c with prescale := v } } : State).emit [.regWr .i2cPrescale v]).finish none)

/-- 44_i2c.md R281 to R287, R294: with no phase in flight a command word, written to CTRL or as its own instruction, whose
precondition on ownership holds puts its phase in flight with the byte of DATA, clears DONE, ARB_LOST and ERROR and makes ACK
free, in one micro-step; nothing else changes. With its precondition false it is refused, and so is any other word. -/
def Obligations.I2cCommandStartsOnePhase : Prop :=
  ∀ (s : State) (x : Word), s.params.Valid → s.i2c.cmd = none →
    (∀ row ∈ [(Instr.i2cStart, s.params.i2cStart, I2cCmd.start (s.i2c.data.setWidth 8), !s.i2c.own),
        (.i2cRestart, s.params.i2cRestart, .restart (s.i2c.data.setWidth 8), s.i2c.own),
        (.i2cWrite, s.params.i2cWrite, .write (s.i2c.data.setWidth 8), s.i2c.own),
        (.i2cReadAck, s.params.i2cReadAck, .read true, s.i2c.own),
        (.i2cReadNack, s.params.i2cReadNack, .read false, s.i2c.own),
        (.i2cStop, s.params.i2cStop, .stop, true)],
      ∀ i ∈ [row.1, Instr.wrI2cCtrl row.2.1],
        (row.2.2.2 = true → exec i s = .next ((({ s with
          i2c := { s.i2c with
            done := false, arbLost := false, error := false, ack := s.draws.head.getLsbD 0, cmd := some row.2.2.1 }
          draws := s.draws.next } : State).emit [.regWr .i2cCtrl row.2.1]).finish none)) ∧
        (row.2.2.2 = false → exec i s = .refused .illegalPhase)) ∧
    (x ∉ [s.params.i2cStart, s.params.i2cRestart, s.params.i2cWrite, s.params.i2cReadAck, s.params.i2cReadNack,
        s.params.i2cStop] → exec (.wrI2cCtrl x) s = .refused .illegalCommand)

/-- 44_i2c.md R292, R289: with a phase in flight a write of CTRL or DATA faults, naming the register, and a write of PRESCALE
is refused. -/
def Obligations.I2cWriteInFlightStops : Prop :=
  ∀ (s : State) (v : Word), s.i2c.cmd.isSome = true →
    (∀ i ∈ [Instr.wrI2cCtrl v, .i2cStart, .i2cRestart, .i2cWrite, .i2cReadAck, .i2cReadNack, .i2cStop],
      exec i s = .fault (.i2cOverrun .i2cCtrl)) ∧
    exec (.wrI2cData v) s = .fault (.i2cOverrun .i2cData) ∧
    ∀ i ∈ [Instr.wrI2cPrescale v, .i2cSetPrescale v], exec i s = .refused .illegalPhase

/-- 44_i2c.md R290, every row of its table: the engine's step ends the phase in flight with the outcome's flags, ownership,
byte and events, DONE 1, another controller's hold ended when this one owns the bus (notes/assumptions/16.md); an outcome the
table does not list for the command changes nothing (notes/assumptions/17.md). -/
def Obligations.I2cEngineFollowsTheTable : Prop :=
  ∀ (s : State) (o : I2cOutcome) (ms : List Move) (c : I2cCmd) (b v : Byte) (k : Bool), s.faulted = none →
    s.refused = none → s.moves = .i2c o :: ms → s.i2c.cmd = some c →
    let addr (hit : Bool) : Event := .i2cAddr (b.extractLsb' 1 7) (b.getLsbD 0) hit
    let rows : List (I2cCmd × I2cOutcome × Option Bool × Bool × Bool × Bool × Word × List Event) := [
      (.start b, .acked, some true, false, false, true, s.i2c.data, [.i2cStart, addr true]),
      (.start b, .nacked, some false, false, false, true, s.i2c.data, [.i2cStart, addr false]),
      (.start b, .arbLost, none, true, false, false, s.i2c.data, [.i2cArbLost]),
      (.start b, .busError, none, false, true, true, s.i2c.data, [.i2cBusError]),
      (.restart b, .acked, some true, false, false, s.i2c.own, s.i2c.data, [.i2cRestart, addr true]),
      (.restart b, .nacked, some false, false, false, s.i2c.own, s.i2c.data, [.i2cRestart, addr false]),
      (.restart b, .arbLost, none, true, false, false, s.i2c.data, [.i2cArbLost]),
      (.restart b, .busError, none, false, true, s.i2c.own, s.i2c.data, [.i2cBusError]),
      (.write b, .acked, some true, false, false, s.i2c.own, s.i2c.data, [.i2cWrite b true]),
      (.write b, .nacked, some false, false, false, s.i2c.own, s.i2c.data, [.i2cWrite b false]),
      (.write b, .arbLost, none, true, false, false, s.i2c.data, [.i2cArbLost]),
      (.write b, .busError, none, false, true, s.i2c.own, s.i2c.data, [.i2cBusError]),
      (.read k, .byte v, none, false, false, s.i2c.own, v.setWidth 32, [.i2cRead v k]),
      (.read k, .arbLost, none, true, false, false, s.i2c.data, [.i2cArbLost]),
      (.read k, .busError, none, false, true, s.i2c.own, s.i2c.data, [.i2cBusError])]
    let stops : List (I2cCmd × I2cOutcome × Option Bool × Bool × Bool × Bool × Word × List Event) :=
      if s.i2c.own then [(.stop, .ok, none, false, false, false, s.i2c.data, [.i2cStop]),
        (.stop, .busError, none, false, true, false, s.i2c.data, [.i2cBusError])]
      else [(.stop, .ok, none, false, false, false, s.i2c.data, [])]
    (∀ row ∈ rows ++ stops, row.1 = c → row.2.1 = o → ∃ ack : Bool,
      (∀ hit, row.2.2.1 = some hit → ack = (hit == s.params.ackIs1)) ∧
      step s = .next { s with
        i2c := { s.i2c with
          ack := ack
          arbLost := row.2.2.2.1
          error := row.2.2.2.2.1
          own := row.2.2.2.2.2.1
          extBusy := s.i2c.extBusy && !row.2.2.2.2.2.1
          data := row.2.2.2.2.2.2.1
          done := true
          cmd := none }
        history := s.history ++ row.2.2.2.2.2.2.2
        moves := ms
        draws := s.draws.next }) ∧
    (i2cTable s.params s.i2c.own c o = none → step s = .next { s with moves := ms })

/-- 44_i2c.md R302: ERROR is classified first, then ARB_LOST, then, where the acknowledge is checked, a missing acknowledge;
else OK. -/
def Obligations.I2cClassifyOrdersTheErrors : Prop :=
  ∀ (p : Params) (w : Word) (check : Bool),
    (w.getLsbD p.i2cErrorBit = true → classify p w check = p.errBus) ∧
    (w.getLsbD p.i2cErrorBit = false → w.getLsbD p.i2cArbLostBit = true → classify p w check = p.errArbLost) ∧
    (w.getLsbD p.i2cErrorBit = false → w.getLsbD p.i2cArbLostBit = false →
      (check = true → w.getLsbD p.i2cAckBit ≠ p.ackIs1 → classify p w check = p.errNack) ∧
      (check = false ∨ w.getLsbD p.i2cAckBit = p.ackIs1 → classify p w check = 0#32))

/-- 44_i2c.md R304, R313, R300, 20_memory.md R84: an I2C operation with an address above 0x7F is refused; with a good one, and
a buffer that reaches into a register window, it is refused (when, notes/assumptions/11.md); else its first micro-step is a
turn of wait_idle(): with BUSY 1 it waits, with BUSY 0 it goes on to the address byte; nothing but the status read happens. -/
def Obligations.I2cOperationsWaitForAnIdleBus : Prop :=
  ∀ (s : State) (addr7 buf n nackLast : Word), s.params.Valid → s.cur.phase = .idle →
    (∀ i ∈ [Instr.i2cWriteN addr7 buf n, .i2cReadN addr7 buf n nackLast], ∀ x, addr7.toNat ≤ 0x7F → buf.toNat ≤ x →
      x < buf.toNat + n.toNat → (∃ win ∈ s.params.bases.windows, win.1 ≤ x ∧ x < win.1 + win.2) →
        exec i s = .refused .misalignedBuffer) ∧
    ∀ i ∈ [Instr.i2cWriteN addr7 buf n, .i2cReadN addr7 buf n nackLast, .i2cRtwb addr7, .i2cRtwbRs addr7],
      (0x7F < addr7.toNat → exec i s = .refused .badAddress) ∧
      (addr7.toNat ≤ 0x7F →
        overlapsWindow s.params.bases buf.toNat n.toNat = false ∨ i ∈ [Instr.i2cRtwb addr7, .i2cRtwbRs addr7] →
        ∃ v : Word, exec i s = .next (((s.emit [.regRd .i2cStatus v]).takeDraw).goTo
          (.i2c .idle (if s.i2c.own || s.i2c.extBusy || s.i2c.cmd.isSome then .waitIdle else .addrData)) Locals.none))

/-- 44_i2c.md R310, R304, R316: with an idle bus and a target that acknowledges everything, I2C.WRITE_N sends START, the
address for writing, the buffer's bytes in order and STOP, and returns OK with the bus released; no memory changes. -/
def Obligations.I2cWriteNSendsTheBufferInOrder : Prop :=
  ∀ (s : State) (addr7 buf n : Word), s.params.Valid → s.cur.phase = .idle → s.i2c.cmd = none → s.i2c.own = false →
    s.i2c.extBusy = false → addr7.toNat ≤ 0x7F → overlapsWindow s.params.bases buf.toNat n.toNat = false →
    buf.toNat + n.toNat ≤ 2 ^ 32 →
    (∃ u, exec (.i2cWriteN addr7 buf n) s = .next u) ∧
    ∃ (t : State) (es : List Event),
      play (.i2cWriteN addr7 buf n) ([.host, .host, .host, .i2c .acked, .host] ++
        (List.replicate n.toNat [.host, .host, .host, .i2c .acked, .host]).flatten ++
        [.host, .i2c .ok, .host, .host]) s = .next t ∧
      t = ({ s with i2c := t.i2c, history := s.history ++ es, draws := t.draws } : State).finish (some 0#32) ∧
      t.i2c.own = false ∧ t.i2c.cmd = none ∧
      es.filter (fun e => match e with | .regRd _ _ => false | .regWr _ _ => false | _ => true) =
        [.i2cStart, .i2cAddr (addr7.setWidth 7) false true] ++
          (List.range n.toNat).map (fun i => Event.i2cWrite (s.mem.read (buf.toNat + i)) true) ++ [.i2cStop]

/-- 44_i2c.md R311, R304, R316: with an idle bus and a target that acknowledges and sends the bytes `vs`, I2C.READ_N sends
START, the address for reading, answers each byte with ACK, but the last with NACK where the operand asks (an operand that is
no bit counts as a free one, notes/assumptions/26.md), sends STOP, stores the bytes in order and returns OK with the bus
released; every other byte of memory is as it was. -/
def Obligations.I2cReadNFillsTheBuffer : Prop :=
  ∀ (s : State) (addr7 buf n nackLast : Word) (vs : List Byte), s.params.Valid → s.mem.wf → s.cur.phase = .idle →
    s.i2c.cmd = none → s.i2c.own = false → s.i2c.extBusy = false → addr7.toNat ≤ 0x7F →
    overlapsWindow s.params.bases buf.toNat n.toNat = false → buf.toNat + n.toNat ≤ 2 ^ 32 → vs.length = n.toNat →
    (∃ u, exec (.i2cReadN addr7 buf n nackLast) s = .next u) ∧
    ∃ (nack : Bool) (t : State) (es : List Event),
      (nackLast.toNat < 2 → nack = decide (nackLast = 1#32)) ∧
      play (.i2cReadN addr7 buf n nackLast) ([.host, .host, .host, .i2c .acked, .host] ++
        (vs.map fun v => [Move.host, .i2c (.byte v), .host, .host, .host]).flatten ++
        [.host, .i2c .ok, .host, .host]) s = .next t ∧
      t = ({ s with i2c := t.i2c, mem := t.mem, history := s.history ++ es, draws := t.draws } : State).finish
        (some 0#32) ∧
      t.i2c.own = false ∧ t.i2c.cmd = none ∧
      (∀ i, (h : i < vs.length) → t.mem.read (buf.toNat + i) = vs[i]) ∧
      (∀ x, x < buf.toNat ∨ buf.toNat + n.toNat ≤ x → t.mem.read x = s.mem.read x) ∧
      es.filter (fun e => match e with | .regRd _ _ => false | .regWr _ _ => false | _ => true) =
        [.i2cStart, .i2cAddr (addr7.setWidth 7) true true] ++
          vs.mapIdx (fun i v => Event.i2cRead v (!(decide (i + 1 = n.toNat) && nack))) ++ [.i2cStop]

/-- 44_i2c.md R312: with an idle bus and a target that acknowledges and sends `v`, I2C.RTWB reads one byte in one transaction
and writes it back in a second, with a STOP between, and returns OK with the bus released; no memory changes. -/
def Obligations.I2cRtwbReadsThenWritesBack : Prop :=
  ∀ (s : State) (addr7 : Word) (v : Byte), s.params.Valid → s.cur.phase = .idle → s.i2c.cmd = none → s.i2c.own = false →
    s.i2c.extBusy = false → addr7.toNat ≤ 0x7F →
    (∃ u, exec (.i2cRtwb addr7) s = .next u) ∧
    ∃ (t : State) (es : List Event),
      play (.i2cRtwb addr7) [.host, .host, .host, .i2c .acked, .host, .host, .i2c (.byte v), .host, .host, .host, .i2c .ok,
        .host, .host, .host, .host, .host, .i2c .acked, .host, .host, .host, .i2c .acked, .host, .host, .i2c .ok, .host,
        .host] s = .next t ∧
      t = ({ s with i2c := t.i2c, history := s.history ++ es, draws := t.draws } : State).finish (some 0#32) ∧
      t.i2c.own = false ∧ t.i2c.cmd = none ∧
      es.filter (fun e => match e with | .regRd _ _ => false | .regWr _ _ => false | _ => true) =
        [.i2cStart, .i2cAddr (addr7.setWidth 7) true true, .i2cRead v false, .i2cStop,
          .i2cStart, .i2cAddr (addr7.setWidth 7) false true, .i2cWrite v true, .i2cStop]

/-- 44_i2c.md R313: with an idle bus and a target that acknowledges and sends `v`, I2C.RTWB_RS sends exactly START, the
address for reading, one byte read, a repeated START, the address for writing, the byte written back and STOP, with no STOP
between the two address phases, and returns OK with the bus released; no memory changes. -/
def Obligations.I2cRtwbRsUsesARepeatedStart : Prop :=
  ∀ (s : State) (addr7 : Word) (v : Byte), s.params.Valid → s.cur.phase = .idle → s.i2c.cmd = none → s.i2c.own = false →
    s.i2c.extBusy = false → addr7.toNat ≤ 0x7F →
    (∃ u, exec (.i2cRtwbRs addr7) s = .next u) ∧
    ∃ (t : State) (es : List Event),
      play (.i2cRtwbRs addr7) [.host, .host, .host, .i2c .acked, .host, .host, .i2c (.byte v), .host, .host, .host, .host,
        .i2c .acked, .host, .host, .host, .i2c .acked, .host, .host, .i2c .ok, .host] s = .next t ∧
      t = ({ s with i2c := t.i2c, history := s.history ++ es, draws := t.draws } : State).finish (some 0#32) ∧
      t.i2c.own = false ∧ t.i2c.cmd = none ∧
      es.filter (fun e => match e with | .regRd _ _ => false | .regWr _ _ => false | _ => true) =
        [.i2cStart, .i2cAddr (addr7.setWidth 7) true true, .i2cRead v false, .i2cRestart,
          .i2cAddr (addr7.setWidth 7) false true, .i2cWrite v true, .i2cStop]

/-- 44_i2c.md R301 to R304, R313, R315: when a phase has ended badly (ERROR before ARB_LOST before, after an address or a data
write, a missing acknowledge), the operation's next micro-step sees DONE; after an address or data phase the one after it
commands STOP and returns the code of the error, or with I2C_ABORT_WAITS goes on to wait for an idle bus; after the STOP phase
of a simple transaction the code is returned at once, with no second STOP. -/
def Obligations.I2cErrorsCommandStopThenReturn : Prop :=
  (∀ (s : State) (addr7 buf n nackLast code : Word) (checkAck : Bool), s.params.Valid → s.i2c.cmd = none →
    s.i2c.done = true →
    (s.i2c.error = true ∧ code = s.params.errBus ∨
      s.i2c.error = false ∧ s.i2c.arbLost = true ∧ code = s.params.errArbLost ∨
      checkAck = true ∧ s.i2c.error = false ∧ s.i2c.arbLost = false ∧ s.i2c.ack ≠ s.params.ackIs1 ∧
        code = s.params.errNack) →
    (∀ i, (checkAck = true ∧
            i ∈ [Instr.i2cWriteN addr7 buf n, .i2cReadN addr7 buf n nackLast, .i2cRtwb addr7, .i2cRtwbRs addr7] ∧
            s.cur.phase = .i2c .addrSent .waitDone ∨
          checkAck = true ∧ i = .i2cWriteN addr7 buf n ∧ s.cur.phase = .i2c .data .waitDone ∨
          i ∈ [Instr.i2cRtwb addr7, .i2cRtwbRs addr7] ∧ s.cur.phase = .i2c .data .waitDone ∧ s.cur.loc.second = checkAck ∨
          checkAck = false ∧ i = .i2cReadN addr7 buf n nackLast ∧ s.cur.phase = .i2c .data .waitDone) →
      ∃ (u t : State) (w : Word) (ack : Bool), exec i s = .next u ∧ exec i u = .next t ∧
        let stopped : State := { s with
          i2c := { s.i2c with done := false, arbLost := false, error := false, ack := ack, cmd := some .stop }
          history := s.history ++ [.regRd .i2cStatus w, .regWr .i2cCtrl s.params.i2cStop]
          draws := t.draws }
        t = if s.params.abortWaits then stopped.goTo (.i2c .stop .abortIdle) { s.cur.loc with code := code }
          else stopped.finish (some code)) ∧
    ∀ i ∈ [Instr.i2cWriteN addr7 buf n, .i2cReadN addr7 buf n nackLast, .i2cRtwb addr7],
      checkAck = false → s.cur.phase = .i2c .stop .waitDone →
      ∃ w : Word, exec i s = .next (((s.emit [.regRd .i2cStatus w]).takeDraw).finish (some code))) ∧
  ∀ (s : State) (addr7 buf n nackLast : Word), s.params.Valid → s.cur.phase = .i2c .stop .abortIdle →
    s.cur.loc.code ≠ 0#32 →
    ∀ i ∈ [Instr.i2cWriteN addr7 buf n, .i2cReadN addr7 buf n nackLast, .i2cRtwb addr7, .i2cRtwbRs addr7],
      ∃ w : Word, exec i s = .next (if s.i2c.own || s.i2c.extBusy || s.i2c.cmd.isSome
        then (s.emit [.regRd .i2cStatus w]).takeDraw
        else ((s.emit [.regRd .i2cStatus w]).takeDraw).finish (some s.cur.loc.code))


/-! ### Timer and PWM (45_timer_pwm.md) -/

/-- 45_timer_pwm.md R340 to R342: each half of MTIME and MTIMECMP is read as it stands and written alone; nothing else
changes. That MTIME can be written is the spec's own decision (R341, D45): the source does not say so. -/
def Obligations.TimerHalvesAreReadAndWrittenAlone : Prop :=
  ∀ (s : State) (v : Word),
    (∀ row ∈ [(Instr.rdTimerMtimeLo, Reg.mtimeLo, s.timer.mtime.toNat % 2 ^ 32),
        (.rdTimerMtimeHi, .mtimeHi, s.timer.mtime.toNat / 2 ^ 32),
        (.rdTimerMtimecmpLo, .mtimecmpLo, s.timer.mtimecmp.toNat % 2 ^ 32),
        (.rdTimerMtimecmpHi, .mtimecmpHi, s.timer.mtimecmp.toNat / 2 ^ 32)],
      exec row.1 s = .next (((s.emit [.regRd row.2.1 (BitVec.ofNat 32 row.2.2)]).takeDraw).finish
        (some (BitVec.ofNat 32 row.2.2)))) ∧
    ∀ row ∈ [(Instr.wrTimerMtimeLo v, Reg.mtimeLo,
          { s.timer with mtime := BitVec.ofNat 64 (s.timer.mtime.toNat / 2 ^ 32 * 2 ^ 32 + v.toNat) }),
        (.wrTimerMtimeHi v, .mtimeHi,
          { s.timer with mtime := BitVec.ofNat 64 (v.toNat * 2 ^ 32 + s.timer.mtime.toNat % 2 ^ 32) }),
        (.wrTimerMtimecmpLo v, .mtimecmpLo,
          { s.timer with mtimecmp := BitVec.ofNat 64 (s.timer.mtimecmp.toNat / 2 ^ 32 * 2 ^ 32 + v.toNat) }),
        (.wrTimerMtimecmpHi v, .mtimecmpHi,
          { s.timer with mtimecmp := BitVec.ofNat 64 (v.toNat * 2 ^ 32 + s.timer.mtimecmp.toNat % 2 ^ 32) })],
      exec row.1 s = .next ((({ s with timer := row.2.2 } : State).emit [.regWr row.2.1 v]).finish none)

/-- 45_timer_pwm.md R343, R344: the timer's step adds to MTIME modulo 2^64 and changes nothing else; bit 7 of `mip` is 1
exactly when MTIME is at or past MTIMECMP, unsigned. Bit 11 is the GPIO request (60_exceptions.md R373), and that every other
bit of `mip` reads 0 is the model's reading of R372 (notes/assumptions/18.md). -/
def Obligations.TimerAdvancesAndRaisesItsLevel : Prop :=
  ∀ (s : State) (k : BitVec 64) (ms : List Move), s.faulted = none → s.refused = none → s.moves = .timer k :: ms →
    step s = .next { s with
      timer := { s.timer with mtime := BitVec.ofNat 64 (s.timer.mtime.toNat + k.toNat) }
      moves := ms } ∧
    ((mip s).getLsbD 7 = true ↔ s.timer.mtimecmp.toNat ≤ s.timer.mtime.toNat) ∧
    (mip s).getLsbD 11 = gpioIrq s ∧ ∀ n, n ≠ 7 → n ≠ 11 → (mip s).getLsbD n = false

/-- 45_timer_pwm.md R346 to R348: CTRL holds the word written, PERIOD and DUTY its low 16 bits; a read returns what is held;
the other channel and everything else stay. -/
def Obligations.PwmRegistersHoldWhatIsWritten : Prop :=
  ∀ (s : State) (v : Word),
    (∀ row ∈ [(Instr.rdPwm0Ctrl, Reg.pwmCtrl .c0, s.pwm0.ctrl), (.rdPwm1Ctrl, .pwmCtrl .c1, s.pwm1.ctrl),
        (.rdPwm0Period, .pwmPeriod .c0, s.pwm0.period.setWidth 32), (.rdPwm1Period, .pwmPeriod .c1, s.pwm1.period.setWidth 32),
        (.rdPwm0Duty, .pwmDuty .c0, s.pwm0.duty.setWidth 32), (.rdPwm1Duty, .pwmDuty .c1, s.pwm1.duty.setWidth 32)],
      exec row.1 s = .next (((s.emit [.regRd row.2.1 row.2.2]).takeDraw).finish (some row.2.2))) ∧
    (∀ row ∈ [(Instr.wrPwm0Ctrl v, Reg.pwmCtrl .c0, { s.pwm0 with ctrl := v }),
        (.wrPwm0Period v, .pwmPeriod .c0, { s.pwm0 with period := BitVec.ofNat 16 v.toNat }),
        (.wrPwm0Duty v, .pwmDuty .c0, { s.pwm0 with duty := BitVec.ofNat 16 v.toNat })],
      exec row.1 s = .next ((({ s with pwm0 := row.2.2 } : State).emit [.regWr row.2.1 v]).finish none)) ∧
    ∀ row ∈ [(Instr.wrPwm1Ctrl v, Reg.pwmCtrl .c1, { s.pwm1 with ctrl := v }),
        (.wrPwm1Period v, .pwmPeriod .c1, { s.pwm1 with period := BitVec.ofNat 16 v.toNat }),
        (.wrPwm1Duty v, .pwmDuty .c1, { s.pwm1 with duty := BitVec.ofNat 16 v.toNat })],
      exec row.1 s = .next ((({ s with pwm1 := row.2.2 } : State).emit [.regWr row.2.1 v]).finish none)

/-- 45_timer_pwm.md R357: a channel above 1, or a period or duty above 0xFFFF, returns ERROR with no register access: nothing
else changes. -/
def Obligations.PwmRangeErrorsTouchNothing : Prop :=
  ∀ (s : State) (ch a b : Word),
    (1 < ch.toNat → ∀ i ∈ [Instr.pwmInit ch, .pwmSetPeriod ch a, .pwmSetDuty ch a, .pwmEnable ch, .pwmDisable ch,
        .pwmStart ch a b, .pwmReadCounter ch],
      exec i s = .next (s.finish (some 0xFFFFFFFF#32))) ∧
    (0xFFFF < a.toNat → ∀ i ∈ [Instr.pwmSetPeriod ch a, .pwmSetDuty ch a, .pwmStart ch a b, .pwmStart ch b a],
      exec i s = .next (s.finish (some 0xFFFFFFFF#32)))

/-- 45_timer_pwm.md R351, R352, R356, R349: PWM.SET_PERIOD and PWM.SET_DUTY store the value in one write and return OK, a duty
above the period too; PWM.READ_COUNTER, like a read of COUNTER itself, returns a free value of 16 bits; the other channel and
everything else stay. -/
def Obligations.PwmSettersStoreTheirValue : Prop :=
  ∀ (s : State) (c : Chan) (x : Word), x.toNat ≤ 0xFFFF →
    let ch : Word := match c with | .c0 => 0#32 | .c1 => 1#32
    exec (.pwmSetPeriod ch x) s = .next (((s.setPwm c { s.pwm c with period := BitVec.ofNat 16 x.toNat }).emit
      [.regWr (.pwmPeriod c) x]).finish (some 0#32)) ∧
    exec (.pwmSetDuty ch x) s = .next (((s.setPwm c { s.pwm c with duty := BitVec.ofNat 16 x.toNat }).emit
      [.regWr (.pwmDuty c) x]).finish (some 0#32)) ∧
    ∀ i ∈ [Instr.pwmReadCounter ch, match c with | .c0 => .rdPwm0Counter | .c1 => .rdPwm1Counter],
      exec i s = .next (((s.emit [.regRd (.pwmCounter c) (s.draws.head &&& 0xFFFF#32)]).takeDraw).finish
        (some (s.draws.head &&& 0xFFFF#32)))

/-- 45_timer_pwm.md R350, R353 to R355: PWM.INIT zeroes CTRL, PERIOD and DUTY; PWM.ENABLE and PWM.DISABLE change the enable
bit alone; PWM.START writes PERIOD, then DUTY, then sets the enable bit; each in its order of accesses, returning OK, the
other channel and everything else as they were. -/
def Obligations.PwmSequencesWriteInOrder : Prop :=
  ∀ (s : State) (c : Chan) (x y : Word), s.params.Valid → s.cur.phase = .idle → x.toNat ≤ 0xFFFF → y.toNat ≤ 0xFFFF →
    let ch : Word := match c with | .c0 => 0#32 | .c1 => 1#32
    let on : Word := setBit (s.pwm c).ctrl s.params.pwmEnBit true
    let off : Word := setBit (s.pwm c).ctrl s.params.pwmEnBit false
    (∀ i ∈ [Instr.pwmInit ch, .pwmEnable ch, .pwmDisable ch, .pwmStart ch x y], ∃ u, exec i s = .next u) ∧
    perform (.pwmInit ch) 3 s = .next (((s.setPwm c { ctrl := 0#32, period := 0#16, duty := 0#16 }).emit
      [.regWr (.pwmCtrl c) 0#32, .regWr (.pwmPeriod c) 0#32, .regWr (.pwmDuty c) 0#32]).finish (some 0#32)) ∧
    perform (.pwmEnable ch) 2 s = .next ((((s.setPwm c { s.pwm c with ctrl := on }).emit
      [.regRd (.pwmCtrl c) (s.pwm c).ctrl, .regWr (.pwmCtrl c) on]).takeDraw).finish (some 0#32)) ∧
    perform (.pwmDisable ch) 2 s = .next ((((s.setPwm c { s.pwm c with ctrl := off }).emit
      [.regRd (.pwmCtrl c) (s.pwm c).ctrl, .regWr (.pwmCtrl c) off]).takeDraw).finish (some 0#32)) ∧
    perform (.pwmStart ch x y) 4 s = .next ((((s.setPwm c
        { ctrl := on, period := BitVec.ofNat 16 x.toNat, duty := BitVec.ofNat 16 y.toNat }).emit
      [.regWr (.pwmPeriod c) x, .regWr (.pwmDuty c) y, .regRd (.pwmCtrl c) (s.pwm c).ctrl,
        .regWr (.pwmCtrl c) on]).takeDraw).finish (some 0#32))

/-! ### The whole machine -/

/-- 30_encoding.md R100, R101, R103, R107, R122: every well-formed instruction has the length of its format, and decoding its
bytes gives it back, with every operand. The bytes are the model's (notes/assumptions/1.md); the codes are the tables'. -/
def Obligations.DecodeOfEncodeIsTheInstruction : Prop :=
  ∀ (p : Params) (i : Instr), p.Valid → i.wellFormed = true →
    (encode p i).2.length = (encode p i).1.size ∧ decodeBytes p (encode p i).1 (encode p i).2 = .ok i

/-- Words written out from the tables of 30_encoding.md R101, R103, R107 and R122 decode to the instructions they stand for,
one or more of each family, and the codes with no row are refused (R73, R123, R125, R141). -/
def Obligations.WrittenWordsDecode : Prop :=
  decodeBytes Config.params (.mmio .gpio) [0x04#8, 0x01#8, 0x78#8, 0x56#8, 0x34#8, 0x12#8] = .ok (.wrGpioOut 0x12345678#32) ∧
  decodeBytes Config.params (.mmio .timer) [0x0C#8, 0x00#8, 0#8, 0#8, 0#8, 0#8] = .ok .rdTimerMtimecmpHi ∧
  decodeBytes Config.params (.mmio .pwm) [0x1C#8, 0x00#8, 0#8, 0#8, 0#8, 0#8] = .ok .rdPwm1Counter ∧
  decodeBytes Config.params (.cmd .i2c) [0x10#8, 0#8, 0#8, 0#8] = .ok .i2cRestart ∧
  decodeBytes Config.params (.cmd .spi) [0x03#8, 0#8, 0#8, 0#8] = .ok .spiStart16 ∧
  decodeBytes Config.params .op ([0x17#8, 5#8, 0#8, 0#8, 0#8, 1#8] ++ List.replicate 11 0#8) = .ok (.gpioWritePin 5#32 1#32) ∧
  decodeBytes Config.params .op (0x33#8 :: List.replicate 16 0#8) = .ok .irqGlobalEnable ∧
  decodeBytes Config.params .op ([0x64#8, 1#8] ++ List.replicate 15 0#8) = .ok (.pwmDisable 1#32) ∧
  decodeBytes Config.params .op (0x22#8 :: List.replicate 16 0#8) = .error .illegalOp ∧
  decodeBytes Config.params (.mmio .gpio) [0x10#8, 0x00#8, 0#8, 0#8, 0#8, 0#8] = .error .reservedOffset ∧
  decodeBytes Config.params (.mmio .spi) [0x0C#8, 0x01#8, 0#8, 0#8, 0#8, 0#8] = .error .badAccess ∧
  decodeBytes Config.params (.cmd .spi) [0x02#8, 0#8, 0#8, 0#8] = .error .illegalCommand

/-- A step runs the decoded instruction: when it is the host's move, no interrupt is due and no exception is raised, a step is
exec of the instruction that the head statement of the running context decodes to (bytes, or a bus access), the move taken off
the agenda; where they decode to none, the step is refused by that name. -/
def Obligations.StepRunsTheDecodedInstruction : Prop :=
  ∀ (s : State) (q : Request) (qs : List Request), s.HostToMove → pendingInterrupt s = none → s.cur.raising = none →
    s.cur.prog = q :: qs →
    ∀ d : Except DecodeError Instr,
      ((∃ f bytes, q = .stmt f bytes ∧ decodeBytes s.params f bytes = d) ∨
        ∃ addr bits write data, q = .bus addr bits write data ∧ decodeBus s.params addr bits write data = d) →
      (∀ i, d = .ok i → step s = exec i { s with moves := s.moves.tail }) ∧
      ∀ e, d = .error e → step s = .refused (refusalOf e)

/-- 40_register_access.md R142, R143, 20_memory.md R78: a POLL statement reads once a step, stays where it is while the bit is
not as wanted, and ends with the word that showed it; an RMW statement reads in one step and writes in the next, the word it
then writes made from the word it kept, whatever the register has become. -/
def Obligations.PollAndRmwStatementsRun : Prop :=
  ∀ (s : State) (qs : List Request) (r : Reg), s.HostToMove → pendingInterrupt s = none → s.cur.raising = none →
    let v := readValue s s.draws.head r
    let read : State := ({ s with moves := s.moves.tail } : State).emit [.regRd r v] |>.takeDraw
    (∀ (bit : Fin 32) (want : Bool), s.cur.prog = .poll r bit want :: qs →
      (v.getLsbD bit = want → step s = .next (read.finish (some v))) ∧
      (v.getLsbD bit ≠ want → step s = .next read)) ∧
    ∀ c b, s.cur.prog = .rmw r c b :: qs →
      (s.cur.phase = .idle → step s = .next (read.goTo .rmwWrite { Locals.none with v := v })) ∧
      (s.cur.phase = .rmwWrite → ∀ t,
        writeEffect r ((s.cur.loc.v &&& ~~~c) ||| b)
          (({ s with moves := s.moves.tail } : State).emit [.regWr r ((s.cur.loc.v &&& ~~~c) ||| b)]) = .next t →
        step s = .next (t.finish none))

/-- Every step of the machine keeps what always holds of the devices, memory and marks (10_state.md R31, R35, R38, R45, R54,
44_i2c.md R291; State.DeviceInv), never changes a parameter (00_scope.md R5) and only adds to the history (10_state.md R55).
-/
def Obligations.StepKeepsTheDeviceInvariant : Prop :=
  ∀ s t : State, s.DeviceInv → step s = .next t → t.DeviceInv ∧ t.params = s.params ∧ s.history <+: t.history

/-- Every step of the machine keeps what always holds of the contexts (10_state.md R45, 60_exceptions.md R377, R379;
State.ContextInv): the main context is the outermost, `trap.depth` counts the entry stubs, and below a stub stands the
interrupted context, at the resume point that `mepc` holds. -/
def Obligations.StepKeepsTheContextInvariant : Prop :=
  ∀ s t : State, s.ContextInv → step s = .next t → t.ContextInv

/-- The state after reset has the values that 10_state.md R56 states and meets both invariants (that its free values do is the
model's reading, notes/assumptions/8.md). CleanEntry (R57) is a premise, not a consequence of reset: it holds after reset
exactly when the engines happen to be quiet, and a power-on state need not meet it. -/
def Obligations.ResetMeetsTheInvariants : Prop :=
  State.reset.PowerOn ∧ State.reset.DeviceInv ∧ State.reset.ContextInv ∧
  (State.reset.CleanEntry ↔
    State.reset.spi.inflight = none ∧ State.reset.i2c.cmd = none ∧ State.reset.i2c.own = false) ∧
  ∃ s : State, s.PowerOn ∧ s.DeviceInv ∧ s.ContextInv ∧ ¬ s.CleanEntry
end

