-- ==== Sys2Proof/Laws/Memory.lean ====
section
/-! SUPPORT. Host buffer memory: every operation keeps the canonical form; a read after a write. -/

namespace Sys2Proof.Machine

/-- A byte below every listed address is unlisted. -/
theorem Memory.read_of_lt {m : Memory} {a : Nat} (h : ∀ c ∈ m, a < c.1) : m.read a = Memory.blank := by
  induction m with
  | nil => rfl
  | cons c rest ih =>
    have hc := h c (by simp)
    simp only [Memory.read]
    rw [if_neg (by omega)]
    exact ih fun d hd => h d (by simp [hd])

/-- What is in memory after a write was there before or is the written byte. -/
theorem Memory.mem_write {m : Memory} {a : Nat} {b : Byte} {c : Host.Cell} (h : c ∈ m.write a b) :
    c ∈ m ∨ (c = (a, b) ∧ b ≠ Memory.blank) := by
  induction m with
  | nil =>
    simp only [Memory.write] at h
    split at h <;> simp_all
  | cons d rest ih =>
    have key : c ∈ d :: rest ∨ (c = (a, b) ∧ b ≠ Memory.blank) := by
      simp only [Memory.write] at h
      split at h
      · split at h
        · exact .inl h
        · rename_i hb
          rcases List.mem_cons.mp h with rfl | h'
          · exact .inr ⟨rfl, hb⟩
          · exact .inl h'
      · split at h
        · split at h
          · exact .inl (List.mem_cons_of_mem _ h)
          · rename_i hb
            rcases List.mem_cons.mp h with rfl | h'
            · exact .inr ⟨rfl, hb⟩
            · exact .inl (List.mem_cons_of_mem _ h')
        · rcases List.mem_cons.mp h with rfl | h'
          · exact .inl (by simp)
          · rcases ih h' with h'' | h''
            · exact .inl (List.mem_cons_of_mem _ h'')
            · exact .inr h''
    exact key

/-- A write keeps the canonical form. -/
theorem Memory.write_wf {m : Memory} {a : Nat} {b : Byte} (hm : m.wf) (ha : a < Config.addressSpace) :
    (m.write a b).wf := by
  refine ⟨?_, fun c hc => ?_⟩
  · obtain ⟨hp, -⟩ := hm
    induction m with
    | nil => simp only [Memory.write]; split <;> simp
    | cons d rest ih =>
      have hd := List.pairwise_cons.mp hp
      simp only [Memory.write]
      split
      · split
        · exact hp
        · refine List.pairwise_cons.mpr ⟨fun c hc => ?_, hp⟩
          rcases List.mem_cons.mp hc with rfl | hc'
          · assumption
          · have := hd.1 c hc'
            simp only; omega
      · split
        · rename_i h
          split
          · exact hd.2
          · exact List.pairwise_cons.mpr ⟨fun c hc => by have := hd.1 c hc; simp only; omega, hd.2⟩
        · refine List.pairwise_cons.mpr ⟨fun c hc => ?_, ih hd.2⟩
          rcases Memory.mem_write hc with hc' | ⟨rfl, -⟩
          · exact hd.1 c hc'
          · simp only; omega
  · rcases Memory.mem_write hc with hc' | ⟨rfl, hb⟩
    · exact hm.2 c hc'
    · exact ⟨ha, hb⟩

/-- A read of the written address gives the written byte. -/
theorem Memory.read_write_same {m : Memory} {a : Nat} {b : Byte} (hm : m.wf) : (m.write a b).read a = b := by
  obtain ⟨hp, -⟩ := hm
  induction m with
  | nil =>
    simp only [Memory.write]
    split
    · simp_all [Memory.read]
    · simp [Memory.read]
  | cons d rest ih =>
    have hd := List.pairwise_cons.mp hp
    simp only [Memory.write]
    split
    · split
      · subst_vars
        exact Memory.read_of_lt fun c hc => by
          rcases List.mem_cons.mp hc with rfl | hc'
          · assumption
          · have := hd.1 c hc'
            omega
      · simp [Memory.read]
    · split
      · split
        · subst_vars
          exact Memory.read_of_lt fun c hc => hd.1 c hc
        · simp [Memory.read]
      · simp only [Memory.read]
        rw [if_neg (by omega)]
        exact ih hd.2

/-- A read of any other address gives what it gave. -/
theorem Memory.read_write_other {m : Memory} {a x : Nat} {b : Byte} (h : x ≠ a) : (m.write a b).read x = m.read x := by
  induction m with
  | nil =>
    simp only [Memory.write]
    split
    · rfl
    · simp [Memory.read, Ne.symm h]
  | cons d rest ih =>
    simp only [Memory.write]
    split
    · split
      · rfl
      · simp [Memory.read, Ne.symm h]
    · split
      · rename_i h1 h2
        split
        · simp only [Memory.read]; rw [if_neg (by omega)]
        · simp only [Memory.read]; rw [if_neg (by omega), if_neg (by omega)]
      · simp only [Memory.read]
        split
        · rfl
        · exact ih

/-- A store inside the address space keeps the canonical form. -/
theorem Memory.store_wf {m : Memory} {a : Nat} {w : SpiWidth} {v : Word} (hm : m.wf)
    (ha : a + SpiWidth.bytes w ≤ Config.addressSpace) : (m.store a w v).wf := by
  cases w <;> simp only [SpiWidth.bytes] at ha <;> simp only [Memory.store]
  · exact Memory.write_wf hm (by omega)
  · exact Memory.write_wf (Memory.write_wf hm (by omega)) (by omega)
  · exact Memory.write_wf (Memory.write_wf (Memory.write_wf (Memory.write_wf hm (by omega)) (by omega)) (by omega)) (by omega)

/-- A store leaves every byte outside the stored ones alone. -/
theorem Memory.read_store_other {m : Memory} {a x : Nat} {w : SpiWidth} {v : Word}
    (h : x < a ∨ a + SpiWidth.bytes w ≤ x) : (m.store a w v).read x = m.read x := by
  cases w <;> simp only [SpiWidth.bytes] at h <;> simp only [Memory.store]
  · rw [Memory.read_write_other (by omega)]
  · rw [Memory.read_write_other (by omega), Memory.read_write_other (by omega)]
  · rw [Memory.read_write_other (by omega), Memory.read_write_other (by omega), Memory.read_write_other (by omega),
      Memory.read_write_other (by omega)]

/-- The bytes of a word put together again are the word. -/
theorem wordOfBytes_byteOf (v : Word) : wordOfBytes (byteOf v 0) (byteOf v 1) (byteOf v 2) (byteOf v 3) = v := by
  apply BitVec.eq_of_getLsbD_eq
  intro i hi
  simp only [wordOfBytes, byteOf, BitVec.getLsbD_append, BitVec.getLsbD_extractLsb']
  split
  · simp; omega
  · split
    · have h : 8 * 1 + (i - 8) = i := by omega
      simp [h]; omega
    · split
      · have h : 8 * 2 + (i - 8 - 8) = i := by omega
        simp [h]; omega
      · have h : 8 * 3 + (i - 8 - 8 - 8) = i := by omega
        simp [h]; omega

/-- The low byte alone. -/
theorem wordOfBytes_byte0 (v : Word) : wordOfBytes (byteOf v 0) 0#8 0#8 0#8 = unitOf .w8 v := by
  apply BitVec.eq_of_toNat_eq
  simp only [wordOfBytes, byteOf, unitOf, widthMask, BitVec.toNat_and]
  rw [show (255#32).toNat = 2 ^ 8 - 1 from rfl, Nat.and_two_pow_sub_one_eq_mod]
  simp only [BitVec.toNat_append, BitVec.extractLsb'_toNat, Nat.shiftRight_eq_div_pow]
  simp

/-- The two low bytes alone. -/
theorem wordOfBytes_byte01 (v : Word) : wordOfBytes (byteOf v 0) (byteOf v 1) 0#8 0#8 = unitOf .w16 v := by
  apply BitVec.eq_of_toNat_eq
  simp only [wordOfBytes, byteOf, unitOf, widthMask, BitVec.toNat_and]
  rw [show (65535#32).toNat = 2 ^ 16 - 1 from rfl, Nat.and_two_pow_sub_one_eq_mod]
  simp only [BitVec.toNat_append, BitVec.extractLsb'_toNat, Nat.shiftRight_eq_div_pow]
  simp
  rw [← Nat.shiftLeft_add_eq_or_of_lt (by omega), Nat.shiftLeft_eq]
  omega

/-- A load after a store at the same place gives the stored unit. -/
theorem Memory.load_store {m : Memory} {a : Nat} {w : SpiWidth} {v : Word} (hm : m.wf)
    (ha : a + SpiWidth.bytes w ≤ Config.addressSpace) : (m.store a w v).load a w = unitOf w v := by
  have hs := fun (n : Memory) (x : Nat) (b : Byte) (h : n.wf) => Memory.read_write_same (m := n) (a := x) (b := b) h
  cases w <;> simp only [SpiWidth.bytes] at ha <;> simp only [Memory.store, Memory.load]
  · rw [hs _ _ _ hm]
    exact wordOfBytes_byte0 v
  · have h1 := Memory.write_wf (b := byteOf v 0) hm (a := a) (by omega)
    rw [hs _ _ _ h1, Memory.read_write_other (by omega), hs _ _ _ hm]
    exact wordOfBytes_byte01 v
  · have h1 := Memory.write_wf (b := byteOf v 0) hm (a := a) (by omega)
    have h2 := Memory.write_wf (b := byteOf v 1) h1 (a := a + 1) (by omega)
    have h3 := Memory.write_wf (b := byteOf v 2) h2 (a := a + 2) (by omega)
    rw [hs _ _ _ h3, Memory.read_write_other (x := a + 2) (by omega), hs _ _ _ h2,
      Memory.read_write_other (x := a + 1) (by omega), Memory.read_write_other (x := a + 1) (by omega), hs _ _ _ h1,
      Memory.read_write_other (x := a) (by omega), Memory.read_write_other (x := a) (by omega),
      Memory.read_write_other (x := a) (by omega), hs _ _ _ hm]
    rw [wordOfBytes_byteOf, unitOf, widthMask, show (0xFFFFFFFF#32 : Word) = BitVec.allOnes 32 from rfl, BitVec.and_allOnes]

/-- Byte `k` of a stored unit, the lowest first. -/
theorem Memory.read_store_byte {m : Memory} {a k : Nat} {w : SpiWidth} {v : Word} (hm : m.wf)
    (ha : a + SpiWidth.bytes w ≤ Config.addressSpace) (hk : k < SpiWidth.bytes w) :
    (m.store a w v).read (a + k) = byteOf v k := by
  have hs := fun (n : Memory) (x : Nat) (b : Byte) (h : n.wf) => Memory.read_write_same (m := n) (a := x) (b := b) h
  cases w <;> simp only [SpiWidth.bytes] at ha hk <;> simp only [Memory.store]
  · obtain rfl : k = 0 := by omega
    exact hs _ _ _ hm
  · have h1 := Memory.write_wf (b := byteOf v 0) hm (show a < _ by omega)
    obtain rfl | rfl : k = 0 ∨ k = 1 := by omega
    · rw [Memory.read_write_other (by omega)]; exact hs _ _ _ hm
    · exact hs _ _ _ h1
  · have h1 := Memory.write_wf (b := byteOf v 0) hm (show a < _ by omega)
    have h2 := Memory.write_wf (b := byteOf v 1) h1 (show a + 1 < _ by omega)
    have h3 := Memory.write_wf (b := byteOf v 2) h2 (show a + 2 < _ by omega)
    obtain rfl | rfl | rfl | rfl : k = 0 ∨ k = 1 ∨ k = 2 ∨ k = 3 := by omega
    · rw [Memory.read_write_other (by omega), Memory.read_write_other (by omega), Memory.read_write_other (by omega)]
      exact hs _ _ _ hm
    · rw [Memory.read_write_other (by omega), Memory.read_write_other (by omega)]; exact hs _ _ _ h1
    · rw [Memory.read_write_other (by omega)]; exact hs _ _ _ h2
    · exact hs _ _ _ h3

/-- The bytes of a word put together from its bytes. -/
theorem byteOf_wordOfBytes (b0 b1 b2 b3 : Byte) :
    byteOf (wordOfBytes b0 b1 b2 b3) 0 = b0 ∧ byteOf (wordOfBytes b0 b1 b2 b3) 1 = b1 ∧
      byteOf (wordOfBytes b0 b1 b2 b3) 2 = b2 ∧ byteOf (wordOfBytes b0 b1 b2 b3) 3 = b3 := by
  refine ⟨?_, ?_, ?_, ?_⟩ <;> apply BitVec.eq_of_getLsbD_eq <;> intro i hi <;>
    simp only [wordOfBytes, byteOf, BitVec.getLsbD_append, BitVec.getLsbD_extractLsb', hi, decide_true, Bool.true_and]
  · rw [if_pos (by omega), Nat.mul_zero, Nat.zero_add]
  · rw [if_neg (by omega), if_pos (by omega)]; congr 1; omega
  · rw [if_neg (by omega), if_neg (by omega), if_pos (by omega)]; congr 1; omega
  · rw [if_neg (by omega), if_neg (by omega), if_neg (by omega)]; congr 1; omega

/-- Byte `k` of a loaded unit, the lowest first. -/
theorem Memory.byteOf_load {m : Memory} {a k : Nat} {w : SpiWidth} (hk : k < SpiWidth.bytes w) :
    byteOf (m.load a w) k = m.read (a + k) := by
  cases w <;> simp only [SpiWidth.bytes] at hk <;> simp only [Memory.load]
  · obtain rfl : k = 0 := by omega
    exact (byteOf_wordOfBytes _ _ _ _).1
  · obtain rfl | rfl : k = 0 ∨ k = 1 := by omega
    · exact (byteOf_wordOfBytes _ _ _ _).1
    · exact (byteOf_wordOfBytes _ _ _ _).2.1
  · obtain rfl | rfl | rfl | rfl : k = 0 ∨ k = 1 ∨ k = 2 ∨ k = 3 := by omega
    · exact (byteOf_wordOfBytes _ _ _ _).1
    · exact (byteOf_wordOfBytes _ _ _ _).2.1
    · exact (byteOf_wordOfBytes _ _ _ _).2.2.1
    · exact (byteOf_wordOfBytes _ _ _ _).2.2.2

end Sys2Proof.Machine
end

