-- ==== Sys2Proof/Laws/State.lean ====
section
/-! SUPPORT. One lemma per field of State per named update, so that no proof unfolds a record update. -/

namespace Sys2Proof.Machine

/-! ### State.emit -/

@[simp] theorem State.emit_params (s : State) (es : List Event) :
    (s.emit es).params = s.params := rfl
@[simp] theorem State.emit_gpio (s : State) (es : List Event) :
    (s.emit es).gpio = s.gpio := rfl
@[simp] theorem State.emit_spi (s : State) (es : List Event) :
    (s.emit es).spi = s.spi := rfl
@[simp] theorem State.emit_i2c (s : State) (es : List Event) :
    (s.emit es).i2c = s.i2c := rfl
@[simp] theorem State.emit_disp (s : State) (es : List Event) :
    (s.emit es).disp = s.disp := rfl
@[simp] theorem State.emit_csr (s : State) (es : List Event) :
    (s.emit es).csr = s.csr := rfl
@[simp] theorem State.emit_trapDepth (s : State) (es : List Event) :
    (s.emit es).trapDepth = s.trapDepth := rfl
@[simp] theorem State.emit_timer (s : State) (es : List Event) :
    (s.emit es).timer = s.timer := rfl
@[simp] theorem State.emit_pwm0 (s : State) (es : List Event) :
    (s.emit es).pwm0 = s.pwm0 := rfl
@[simp] theorem State.emit_pwm1 (s : State) (es : List Event) :
    (s.emit es).pwm1 = s.pwm1 := rfl
@[simp] theorem State.emit_cur (s : State) (es : List Event) :
    (s.emit es).cur = s.cur := rfl
@[simp] theorem State.emit_susp (s : State) (es : List Event) :
    (s.emit es).susp = s.susp := rfl
@[simp] theorem State.emit_mem (s : State) (es : List Event) :
    (s.emit es).mem = s.mem := rfl
@[simp] theorem State.emit_faulted (s : State) (es : List Event) :
    (s.emit es).faulted = s.faulted := rfl
@[simp] theorem State.emit_refused (s : State) (es : List Event) :
    (s.emit es).refused = s.refused := rfl
@[simp] theorem State.emit_history (s : State) (es : List Event) :
    (s.emit es).history = s.history ++ es := rfl
@[simp] theorem State.emit_moves (s : State) (es : List Event) :
    (s.emit es).moves = s.moves := rfl
@[simp] theorem State.emit_draws (s : State) (es : List Event) :
    (s.emit es).draws = s.draws := rfl

/-! ### State.takeDraw -/

@[simp] theorem State.takeDraw_params (s : State) :
    (s.takeDraw).params = s.params := rfl
@[simp] theorem State.takeDraw_gpio (s : State) :
    (s.takeDraw).gpio = s.gpio := rfl
@[simp] theorem State.takeDraw_spi (s : State) :
    (s.takeDraw).spi = s.spi := rfl
@[simp] theorem State.takeDraw_i2c (s : State) :
    (s.takeDraw).i2c = s.i2c := rfl
@[simp] theorem State.takeDraw_disp (s : State) :
    (s.takeDraw).disp = s.disp := rfl
@[simp] theorem State.takeDraw_csr (s : State) :
    (s.takeDraw).csr = s.csr := rfl
@[simp] theorem State.takeDraw_trapDepth (s : State) :
    (s.takeDraw).trapDepth = s.trapDepth := rfl
@[simp] theorem State.takeDraw_timer (s : State) :
    (s.takeDraw).timer = s.timer := rfl
@[simp] theorem State.takeDraw_pwm0 (s : State) :
    (s.takeDraw).pwm0 = s.pwm0 := rfl
@[simp] theorem State.takeDraw_pwm1 (s : State) :
    (s.takeDraw).pwm1 = s.pwm1 := rfl
@[simp] theorem State.takeDraw_cur (s : State) :
    (s.takeDraw).cur = s.cur := rfl
@[simp] theorem State.takeDraw_susp (s : State) :
    (s.takeDraw).susp = s.susp := rfl
@[simp] theorem State.takeDraw_mem (s : State) :
    (s.takeDraw).mem = s.mem := rfl
@[simp] theorem State.takeDraw_faulted (s : State) :
    (s.takeDraw).faulted = s.faulted := rfl
@[simp] theorem State.takeDraw_refused (s : State) :
    (s.takeDraw).refused = s.refused := rfl
@[simp] theorem State.takeDraw_history (s : State) :
    (s.takeDraw).history = s.history := rfl
@[simp] theorem State.takeDraw_moves (s : State) :
    (s.takeDraw).moves = s.moves := rfl
@[simp] theorem State.takeDraw_draws (s : State) :
    (s.takeDraw).draws = s.draws.next := rfl

/-! ### State.goTo -/

@[simp] theorem State.goTo_params (s : State) (ph : Phase) (l : Locals) :
    (s.goTo ph l).params = s.params := rfl
@[simp] theorem State.goTo_gpio (s : State) (ph : Phase) (l : Locals) :
    (s.goTo ph l).gpio = s.gpio := rfl
@[simp] theorem State.goTo_spi (s : State) (ph : Phase) (l : Locals) :
    (s.goTo ph l).spi = s.spi := rfl
@[simp] theorem State.goTo_i2c (s : State) (ph : Phase) (l : Locals) :
    (s.goTo ph l).i2c = s.i2c := rfl
@[simp] theorem State.goTo_disp (s : State) (ph : Phase) (l : Locals) :
    (s.goTo ph l).disp = s.disp := rfl
@[simp] theorem State.goTo_csr (s : State) (ph : Phase) (l : Locals) :
    (s.goTo ph l).csr = s.csr := rfl
@[simp] theorem State.goTo_trapDepth (s : State) (ph : Phase) (l : Locals) :
    (s.goTo ph l).trapDepth = s.trapDepth := rfl
@[simp] theorem State.goTo_timer (s : State) (ph : Phase) (l : Locals) :
    (s.goTo ph l).timer = s.timer := rfl
@[simp] theorem State.goTo_pwm0 (s : State) (ph : Phase) (l : Locals) :
    (s.goTo ph l).pwm0 = s.pwm0 := rfl
@[simp] theorem State.goTo_pwm1 (s : State) (ph : Phase) (l : Locals) :
    (s.goTo ph l).pwm1 = s.pwm1 := rfl
@[simp] theorem State.goTo_cur (s : State) (ph : Phase) (l : Locals) :
    (s.goTo ph l).cur = { s.cur with phase := ph, loc := l } := rfl
@[simp] theorem State.goTo_susp (s : State) (ph : Phase) (l : Locals) :
    (s.goTo ph l).susp = s.susp := rfl
@[simp] theorem State.goTo_mem (s : State) (ph : Phase) (l : Locals) :
    (s.goTo ph l).mem = s.mem := rfl
@[simp] theorem State.goTo_faulted (s : State) (ph : Phase) (l : Locals) :
    (s.goTo ph l).faulted = s.faulted := rfl
@[simp] theorem State.goTo_refused (s : State) (ph : Phase) (l : Locals) :
    (s.goTo ph l).refused = s.refused := rfl
@[simp] theorem State.goTo_history (s : State) (ph : Phase) (l : Locals) :
    (s.goTo ph l).history = s.history := rfl
@[simp] theorem State.goTo_moves (s : State) (ph : Phase) (l : Locals) :
    (s.goTo ph l).moves = s.moves := rfl
@[simp] theorem State.goTo_draws (s : State) (ph : Phase) (l : Locals) :
    (s.goTo ph l).draws = s.draws := rfl

/-! ### State.finish -/

@[simp] theorem State.finish_params (s : State) (res : Option Word) :
    (s.finish res).params = s.params := rfl
@[simp] theorem State.finish_gpio (s : State) (res : Option Word) :
    (s.finish res).gpio = s.gpio := rfl
@[simp] theorem State.finish_spi (s : State) (res : Option Word) :
    (s.finish res).spi = s.spi := rfl
@[simp] theorem State.finish_i2c (s : State) (res : Option Word) :
    (s.finish res).i2c = s.i2c := rfl
@[simp] theorem State.finish_disp (s : State) (res : Option Word) :
    (s.finish res).disp = s.disp := rfl
@[simp] theorem State.finish_csr (s : State) (res : Option Word) :
    (s.finish res).csr = s.csr := rfl
@[simp] theorem State.finish_trapDepth (s : State) (res : Option Word) :
    (s.finish res).trapDepth = s.trapDepth := rfl
@[simp] theorem State.finish_timer (s : State) (res : Option Word) :
    (s.finish res).timer = s.timer := rfl
@[simp] theorem State.finish_pwm0 (s : State) (res : Option Word) :
    (s.finish res).pwm0 = s.pwm0 := rfl
@[simp] theorem State.finish_pwm1 (s : State) (res : Option Word) :
    (s.finish res).pwm1 = s.pwm1 := rfl
@[simp] theorem State.finish_cur (s : State) (res : Option Word) :
    (s.finish res).cur = { s.cur with prog := s.cur.prog.tail, phase := .idle, loc := Locals.none, result := res } := rfl
@[simp] theorem State.finish_susp (s : State) (res : Option Word) :
    (s.finish res).susp = s.susp := rfl
@[simp] theorem State.finish_mem (s : State) (res : Option Word) :
    (s.finish res).mem = s.mem := rfl
@[simp] theorem State.finish_faulted (s : State) (res : Option Word) :
    (s.finish res).faulted = s.faulted := rfl
@[simp] theorem State.finish_refused (s : State) (res : Option Word) :
    (s.finish res).refused = s.refused := rfl
@[simp] theorem State.finish_history (s : State) (res : Option Word) :
    (s.finish res).history = s.history := rfl
@[simp] theorem State.finish_moves (s : State) (res : Option Word) :
    (s.finish res).moves = s.moves := rfl
@[simp] theorem State.finish_draws (s : State) (res : Option Word) :
    (s.finish res).draws = s.draws := rfl

/-! ### State.moved -/

@[simp] theorem State.moved_params (s : State) :
    (s.moved).params = s.params := rfl
@[simp] theorem State.moved_gpio (s : State) :
    (s.moved).gpio = s.gpio := rfl
@[simp] theorem State.moved_spi (s : State) :
    (s.moved).spi = s.spi := rfl
@[simp] theorem State.moved_i2c (s : State) :
    (s.moved).i2c = s.i2c := rfl
@[simp] theorem State.moved_disp (s : State) :
    (s.moved).disp = s.disp := rfl
@[simp] theorem State.moved_csr (s : State) :
    (s.moved).csr = s.csr := rfl
@[simp] theorem State.moved_trapDepth (s : State) :
    (s.moved).trapDepth = s.trapDepth := rfl
@[simp] theorem State.moved_timer (s : State) :
    (s.moved).timer = s.timer := rfl
@[simp] theorem State.moved_pwm0 (s : State) :
    (s.moved).pwm0 = s.pwm0 := rfl
@[simp] theorem State.moved_pwm1 (s : State) :
    (s.moved).pwm1 = s.pwm1 := rfl
@[simp] theorem State.moved_cur (s : State) :
    (s.moved).cur = s.cur := rfl
@[simp] theorem State.moved_susp (s : State) :
    (s.moved).susp = s.susp := rfl
@[simp] theorem State.moved_mem (s : State) :
    (s.moved).mem = s.mem := rfl
@[simp] theorem State.moved_faulted (s : State) :
    (s.moved).faulted = s.faulted := rfl
@[simp] theorem State.moved_refused (s : State) :
    (s.moved).refused = s.refused := rfl
@[simp] theorem State.moved_history (s : State) :
    (s.moved).history = s.history := rfl
@[simp] theorem State.moved_moves (s : State) :
    (s.moved).moves = s.moves.tail := rfl
@[simp] theorem State.moved_draws (s : State) :
    (s.moved).draws = s.draws := rfl

/-! ### State.putGpio -/

@[simp] theorem State.putGpio_params (s : State) (g : Gpio) :
    (s.putGpio g).params = s.params := rfl
@[simp] theorem State.putGpio_gpio (s : State) (g : Gpio) :
    (s.putGpio g).gpio = g := rfl
@[simp] theorem State.putGpio_spi (s : State) (g : Gpio) :
    (s.putGpio g).spi = s.spi := rfl
@[simp] theorem State.putGpio_i2c (s : State) (g : Gpio) :
    (s.putGpio g).i2c = s.i2c := rfl
@[simp] theorem State.putGpio_disp (s : State) (g : Gpio) :
    (s.putGpio g).disp = s.disp := rfl
@[simp] theorem State.putGpio_csr (s : State) (g : Gpio) :
    (s.putGpio g).csr = s.csr := rfl
@[simp] theorem State.putGpio_trapDepth (s : State) (g : Gpio) :
    (s.putGpio g).trapDepth = s.trapDepth := rfl
@[simp] theorem State.putGpio_timer (s : State) (g : Gpio) :
    (s.putGpio g).timer = s.timer := rfl
@[simp] theorem State.putGpio_pwm0 (s : State) (g : Gpio) :
    (s.putGpio g).pwm0 = s.pwm0 := rfl
@[simp] theorem State.putGpio_pwm1 (s : State) (g : Gpio) :
    (s.putGpio g).pwm1 = s.pwm1 := rfl
@[simp] theorem State.putGpio_cur (s : State) (g : Gpio) :
    (s.putGpio g).cur = s.cur := rfl
@[simp] theorem State.putGpio_susp (s : State) (g : Gpio) :
    (s.putGpio g).susp = s.susp := rfl
@[simp] theorem State.putGpio_mem (s : State) (g : Gpio) :
    (s.putGpio g).mem = s.mem := rfl
@[simp] theorem State.putGpio_faulted (s : State) (g : Gpio) :
    (s.putGpio g).faulted = s.faulted := rfl
@[simp] theorem State.putGpio_refused (s : State) (g : Gpio) :
    (s.putGpio g).refused = s.refused := rfl
@[simp] theorem State.putGpio_history (s : State) (g : Gpio) :
    (s.putGpio g).history = s.history ++ padEvents s.params s.gpio g := rfl
@[simp] theorem State.putGpio_moves (s : State) (g : Gpio) :
    (s.putGpio g).moves = s.moves := rfl
@[simp] theorem State.putGpio_draws (s : State) (g : Gpio) :
    (s.putGpio g).draws = s.draws := rfl

/-! ### State.bind -/

@[simp] theorem State.bind_params (s : State) (n : Nat) (h : Word) :
    (s.bind n h).params = s.params := rfl
@[simp] theorem State.bind_gpio (s : State) (n : Nat) (h : Word) :
    (s.bind n h).gpio = s.gpio := rfl
@[simp] theorem State.bind_spi (s : State) (n : Nat) (h : Word) :
    (s.bind n h).spi = s.spi := rfl
@[simp] theorem State.bind_i2c (s : State) (n : Nat) (h : Word) :
    (s.bind n h).i2c = s.i2c := rfl
@[simp] theorem State.bind_disp (s : State) (n : Nat) (h : Word) :
    (s.bind n h).disp = { s.disp with table := s.disp.table.setIfInBounds n h } := rfl
@[simp] theorem State.bind_csr (s : State) (n : Nat) (h : Word) :
    (s.bind n h).csr = s.csr := rfl
@[simp] theorem State.bind_trapDepth (s : State) (n : Nat) (h : Word) :
    (s.bind n h).trapDepth = s.trapDepth := rfl
@[simp] theorem State.bind_timer (s : State) (n : Nat) (h : Word) :
    (s.bind n h).timer = s.timer := rfl
@[simp] theorem State.bind_pwm0 (s : State) (n : Nat) (h : Word) :
    (s.bind n h).pwm0 = s.pwm0 := rfl
@[simp] theorem State.bind_pwm1 (s : State) (n : Nat) (h : Word) :
    (s.bind n h).pwm1 = s.pwm1 := rfl
@[simp] theorem State.bind_cur (s : State) (n : Nat) (h : Word) :
    (s.bind n h).cur = s.cur := rfl
@[simp] theorem State.bind_susp (s : State) (n : Nat) (h : Word) :
    (s.bind n h).susp = s.susp := rfl
@[simp] theorem State.bind_mem (s : State) (n : Nat) (h : Word) :
    (s.bind n h).mem = s.mem := rfl
@[simp] theorem State.bind_faulted (s : State) (n : Nat) (h : Word) :
    (s.bind n h).faulted = s.faulted := rfl
@[simp] theorem State.bind_refused (s : State) (n : Nat) (h : Word) :
    (s.bind n h).refused = s.refused := rfl
@[simp] theorem State.bind_history (s : State) (n : Nat) (h : Word) :
    (s.bind n h).history = s.history := rfl
@[simp] theorem State.bind_moves (s : State) (n : Nat) (h : Word) :
    (s.bind n h).moves = s.moves := rfl
@[simp] theorem State.bind_draws (s : State) (n : Nat) (h : Word) :
    (s.bind n h).draws = s.draws := rfl

/-! ### State.setPwm -/

@[simp] theorem State.setPwm_params (s : State) (c : Chan) (x : Pwm) :
    (s.setPwm c x).params = s.params := by cases c <;> rfl
@[simp] theorem State.setPwm_gpio (s : State) (c : Chan) (x : Pwm) :
    (s.setPwm c x).gpio = s.gpio := by cases c <;> rfl
@[simp] theorem State.setPwm_spi (s : State) (c : Chan) (x : Pwm) :
    (s.setPwm c x).spi = s.spi := by cases c <;> rfl
@[simp] theorem State.setPwm_i2c (s : State) (c : Chan) (x : Pwm) :
    (s.setPwm c x).i2c = s.i2c := by cases c <;> rfl
@[simp] theorem State.setPwm_disp (s : State) (c : Chan) (x : Pwm) :
    (s.setPwm c x).disp = s.disp := by cases c <;> rfl
@[simp] theorem State.setPwm_csr (s : State) (c : Chan) (x : Pwm) :
    (s.setPwm c x).csr = s.csr := by cases c <;> rfl
@[simp] theorem State.setPwm_trapDepth (s : State) (c : Chan) (x : Pwm) :
    (s.setPwm c x).trapDepth = s.trapDepth := by cases c <;> rfl
@[simp] theorem State.setPwm_timer (s : State) (c : Chan) (x : Pwm) :
    (s.setPwm c x).timer = s.timer := by cases c <;> rfl
@[simp] theorem State.setPwm_cur (s : State) (c : Chan) (x : Pwm) :
    (s.setPwm c x).cur = s.cur := by cases c <;> rfl
@[simp] theorem State.setPwm_susp (s : State) (c : Chan) (x : Pwm) :
    (s.setPwm c x).susp = s.susp := by cases c <;> rfl
@[simp] theorem State.setPwm_mem (s : State) (c : Chan) (x : Pwm) :
    (s.setPwm c x).mem = s.mem := by cases c <;> rfl
@[simp] theorem State.setPwm_faulted (s : State) (c : Chan) (x : Pwm) :
    (s.setPwm c x).faulted = s.faulted := by cases c <;> rfl
@[simp] theorem State.setPwm_refused (s : State) (c : Chan) (x : Pwm) :
    (s.setPwm c x).refused = s.refused := by cases c <;> rfl
@[simp] theorem State.setPwm_history (s : State) (c : Chan) (x : Pwm) :
    (s.setPwm c x).history = s.history := by cases c <;> rfl
@[simp] theorem State.setPwm_moves (s : State) (c : Chan) (x : Pwm) :
    (s.setPwm c x).moves = s.moves := by cases c <;> rfl
@[simp] theorem State.setPwm_draws (s : State) (c : Chan) (x : Pwm) :
    (s.setPwm c x).draws = s.draws := by cases c <;> rfl
@[simp] theorem State.setPwm_pwm (s : State) (c : Chan) (x : Pwm) : (s.setPwm c x).pwm c = x := by cases c <;> rfl
theorem State.setPwm_pwm_other (s : State) (c d : Chan) (x : Pwm) (h : d ≠ c) : (s.setPwm c x).pwm d = s.pwm d := by
  cases c <;> cases d <;> first | rfl | exact absurd rfl h

/-! ### andThen -/

@[simp] theorem andThen_next (s : State) (f : State → Result) : andThen (.next s) f = f s := rfl
@[simp] theorem andThen_fault (r : Fault) (f : State → Result) : andThen (.fault r) f = .fault r := rfl
@[simp] theorem andThen_refused (r : Refusal) (f : State → Result) : andThen (.refused r) f = .refused r := rfl

/-- Going on answers a next state only from a next state. -/
theorem andThen_eq_next {o : Result} {f : State → Result} {t : State} (h : andThen o f = .next t) :
    ∃ s, o = .next s ∧ f s = .next t := by
  cases o with
  | next s => exact ⟨s, rfl, h⟩
  | fault r => cases h
  | refused r => cases h

end Sys2Proof.Machine
end

