-- ==== Sys2Proof/Laws/Words.lean ====
section
/-! SUPPORT. Bit by bit: what the word helpers of Word.lean, Operands.lean and Flags.lean compute. -/

namespace Sys2Proof

@[simp] theorem getLsbD_bitWord (i k : Nat) : (bitWord i).getLsbD k = (decide (k < 32) && decide (k = i)) := by
  simp only [bitWord, BitVec.getLsbD_shiftLeft, BitVec.getLsbD_one]
  by_cases h : k < i
  · simp [h, Nat.ne_of_lt h]
  · have : (k - i = 0) = (k = i) := by simp; omega
    simp [h, this]

@[simp] theorem getLsbD_onesWord (n k : Nat) : (onesWord n).getLsbD k = (decide (k < 32) && decide (k < n)) := by
  simp [onesWord, BitVec.getLsbD_ofNat]

@[simp] theorem getLsbD_maskMerge (m w d : Word) (k : Nat) :
    (maskMerge m w d).getLsbD k = if m.getLsbD k then w.getLsbD k else d.getLsbD k := by
  simp only [maskMerge, BitVec.getLsbD_or, BitVec.getLsbD_and, BitVec.getLsbD_not]
  by_cases hk : k < 32
  · cases m.getLsbD k <;> simp [hk]
  · simp [BitVec.getLsbD_of_ge _ k (Nat.le_of_not_lt hk)]

@[simp] theorem getLsbD_setBit (w : Word) (i : Nat) (b : Bool) (k : Nat) :
    (setBit w i b).getLsbD k = if k = i ∧ k < 32 then b else w.getLsbD k := by
  unfold setBit
  by_cases hk : k < 32
  · cases b <;> by_cases h : k = i
    · subst h; simp only [Bool.false_eq_true, if_false, BitVec.getLsbD_and, BitVec.getLsbD_not, getLsbD_bitWord]; simp [hk]
    · simp only [Bool.false_eq_true, if_false, BitVec.getLsbD_and, BitVec.getLsbD_not, getLsbD_bitWord]; simp [hk, h]
    · subst h; simp only [if_true, BitVec.getLsbD_or, getLsbD_bitWord]; simp [hk]
    · simp only [if_true, BitVec.getLsbD_or, getLsbD_bitWord]; simp [h]
  · simp [hk, BitVec.getLsbD_of_ge _ k (Nat.le_of_not_lt hk)]

@[simp] theorem getElem_bitWord (i k : Nat) (hk : k < 32) : (bitWord i)[k] = decide (k = i) := by
  rw [← BitVec.getLsbD_eq_getElem]; simp only [getLsbD_bitWord]; simp [hk]

@[simp] theorem getElem_maskMerge (m w d : Word) (k : Nat) (hk : k < 32) :
    (maskMerge m w d)[k] = if m[k] then w[k] else d[k] := by
  rw [← BitVec.getLsbD_eq_getElem]; simp only [getLsbD_maskMerge]; simp [hk]

@[simp] theorem getElem_setBit (w : Word) (i : Nat) (b : Bool) (k : Nat) (hk : k < 32) :
    (setBit w i b)[k] = if k = i then b else w[k] := by
  rw [← BitVec.getLsbD_eq_getElem]; simp only [getLsbD_setBit]; simp [hk]

namespace Machine

@[simp] theorem getElem_pinMask (p : Params) (k : Nat) (hk : k < 32) : (pinMask p)[k] = decide (k ≤ p.pinMax) := by
  rw [← BitVec.getLsbD_eq_getElem]; simp only [pinMask, getLsbD_onesWord]; simp [hk]

@[simp] theorem getLsbD_pinMask (p : Params) (k : Nat) :
    (pinMask p).getLsbD k = (decide (k < 32) && decide (k ≤ p.pinMax)) := by
  simp [pinMask, Nat.lt_succ_iff]

@[simp] theorem getLsbD_boolWord (b : Bool) (k : Nat) : (boolWord b).getLsbD k = (b && decide (k = 0)) := by
  cases b <;> simp [boolWord, BitVec.getLsbD_one]

theorem pinOk_iff {p : Params} {pin : Word} : pinOk p pin = true ↔ pin.toNat ≤ p.pinMax := by simp [pinOk]

@[simp] theorem getLsbD_padLevels (p : Params) (g : Gpio) (d : Word) (k : Nat) :
    (padLevels p g d).getLsbD k =
      (decide (k < 32) && (decide (k ≤ p.pinMax) &&
        (if (outputPins p g).getLsbD k then (if p.loopback then g.out else d).getLsbD k else g.ext.getLsbD k))) := by
  simp only [padLevels, BitVec.getLsbD_and, getLsbD_maskMerge, getLsbD_pinMask]
  by_cases hk : k < 32 <;> by_cases hp : k ≤ p.pinMax <;> simp [hk, hp]

@[simp] theorem getElem_padLevels (p : Params) (g : Gpio) (d : Word) (k : Nat) (hk : k < 32) :
    (padLevels p g d)[k] = (decide (k ≤ p.pinMax) &&
      (if (outputPins p g)[k] then (if p.loopback then g.out[k] else d[k]) else g.ext[k])) := by
  rw [← BitVec.getLsbD_eq_getElem]
  simp only [getLsbD_padLevels]
  cases p.loopback <;> simp [hk]

theorem getLsbD_outputPins (p : Params) (g : Gpio) (k : Nat) (hk : k < 32) :
    (outputPins p g).getLsbD k = (g.dir.getLsbD k == p.dirOutIs1) := by
  simp only [outputPins]
  cases p.dirOutIs1 <;> simp [hk]

theorem getElem_outputPins (p : Params) (g : Gpio) (k : Nat) (hk : k < 32) :
    (outputPins p g)[k] = (g.dir[k] == p.dirOutIs1) := by
  have h := getLsbD_outputPins p g k hk
  simpa [hk] using h

end Machine
end Sys2Proof
end

