-- ==== Sys2Proof/Laws/Ops.lean ====
section
/-! SUPPORT. One lemma per shared operation: everything it can do when it answers a next state. -/

namespace Sys2Proof.Machine

/-! ### What device accesses leave alone -/

/-- `t` is `s` but for the device registers, later events and the draws. -/
structure DevicesOnly (s t : State) : Prop where
  params : t.params = s.params
  disp : t.disp = s.disp
  csr : t.csr = s.csr
  trapDepth : t.trapDepth = s.trapDepth
  cur : t.cur = s.cur
  susp : t.susp = s.susp
  mem : t.mem = s.mem
  faulted : t.faulted = s.faulted
  refused : t.refused = s.refused
  moves : t.moves = s.moves
  history : s.history <+: t.history

theorem DevicesOnly.refl (s : State) : DevicesOnly s s :=
  ⟨rfl, rfl, rfl, rfl, rfl, rfl, rfl, rfl, rfl, rfl, List.prefix_rfl⟩

theorem DevicesOnly.trans {s t u : State} (h : DevicesOnly s t) (k : DevicesOnly t u) : DevicesOnly s u :=
  ⟨k.params.trans h.params, k.disp.trans h.disp, k.csr.trans h.csr, k.trapDepth.trans h.trapDepth, k.cur.trans h.cur,
    k.susp.trans h.susp, k.mem.trans h.mem, k.faulted.trans h.faulted, k.refused.trans h.refused, k.moves.trans h.moves,
    h.history.trans k.history⟩

theorem DevicesOnly.emit (s : State) (es : List Event) : DevicesOnly s (s.emit es) :=
  ⟨rfl, rfl, rfl, rfl, rfl, rfl, rfl, rfl, rfl, rfl, List.prefix_append _ _⟩

theorem DevicesOnly.takeDraw (s : State) : DevicesOnly s s.takeDraw :=
  ⟨rfl, rfl, rfl, rfl, rfl, rfl, rfl, rfl, rfl, rfl, List.prefix_rfl⟩

theorem DevicesOnly.putGpio (s : State) (g : Gpio) : DevicesOnly s (s.putGpio g) :=
  ⟨rfl, rfl, rfl, rfl, rfl, rfl, rfl, rfl, rfl, rfl, List.prefix_append _ _⟩

theorem DevicesOnly.setPwm (s : State) (c : Chan) (x : Pwm) : DevicesOnly s (s.setPwm c x) := by
  cases c <;> exact ⟨rfl, rfl, rfl, rfl, rfl, rfl, rfl, rfl, rfl, rfl, List.prefix_rfl⟩

/-! ### Operands -/

/-- An operand that fits its width is used as it stands. -/
theorem withOperand_fits {bits : Nat} {x : Word} {k : Word → State → Result} {s : State} (h : x.toNat < 2 ^ bits) :
    withOperand bits x k s = k x s := if_pos h

/-- An operand is used as a value of its width: itself where it fits, else a free one, with a draw taken. -/
theorem withOperand_cases (bits : Nat) (hb : bits ≤ 32) (x : Word) (k : Word → State → Result) (s : State) :
    (x.toNat < 2 ^ bits ∧ withOperand bits x k s = k x s) ∨
      (2 ^ bits ≤ x.toNat ∧ ∃ y : Word, y.toNat < 2 ^ bits ∧ withOperand bits x k s = k y s.takeDraw) := by
  by_cases h : x.toNat < 2 ^ bits
  · exact .inl ⟨h, if_pos h⟩
  · refine .inr ⟨Nat.le_of_not_lt h, s.draws.head &&& onesWord bits, ?_, if_neg h⟩
    have hp := Nat.two_pow_pos bits
    have hle : 2 ^ bits ≤ 2 ^ 32 := Nat.pow_le_pow_right (by decide) hb
    have h1 : (onesWord bits).toNat = 2 ^ bits - 1 := by
      simp only [onesWord, BitVec.toNat_ofNat]; exact Nat.mod_eq_of_lt (by omega)
    have h2 := Nat.and_le_right (n := s.draws.head.toNat) (m := (onesWord bits).toNat)
    rw [BitVec.toNat_and]; omega

/-! ### Register reads and writes -/

/-- A read returns the register's value, logs it and takes one draw. -/
theorem regRead_eq (r : Reg) (s : State) :
    regRead r s = (readValue s s.draws.head r, (s.emit [.regRd r (readValue s s.draws.head r)]).takeDraw) := rfl

theorem regRead_devicesOnly (r : Reg) (s : State) : DevicesOnly s (regRead r s).2 :=
  (DevicesOnly.emit s _).trans (DevicesOnly.takeDraw _)

/-- What a write of SPI.CTRL does when it goes through: a legal word starts a unit, with none in flight. -/
theorem writeSpiCtrl_next {v : Word} {s t : State} (h : writeSpiCtrl v s = .next t) :
    s.spi.inflight = none ∧ ∃ w, spiCommand s.params v = some w ∧
      t = { s with spi := { s.spi with
        inflight := some { width := w, value := unitOf w s.spi.txdata }, done := false, busy := true } } := by
  unfold writeSpiCtrl at h
  split at h
  · cases h
  · rename_i hf
    split at h
    · cases h
    · rename_i w hw
      cases h
      exact ⟨by simpa using hf, w, hw, rfl⟩

/-- What a write of I2C.CTRL does when it goes through: a legal word whose precondition holds starts a phase. -/
theorem writeI2cCtrl_next {v : Word} {s t : State} (h : writeI2cCtrl v s = .next t) :
    s.i2c.cmd = none ∧ ∃ c, i2cCommand s.params v s.i2c.data = some c ∧ i2cAllowed s.i2c.own c = true ∧
      t = { s with
        i2c := { s.i2c with
          done := false, arbLost := false, error := false, ack := s.draws.head.getLsbD 0, cmd := some c }
        draws := s.draws.next } := by
  unfold writeI2cCtrl at h
  split at h
  · cases h
  · rename_i hf
    split at h
    · cases h
    · rename_i c hc
      split at h
      · rename_i ha
        cases h
        exact ⟨by simpa using hf, c, hc, ha, rfl⟩
      · cases h

/-- A register write changes device registers only. -/
theorem writeEffect_devicesOnly {r : Reg} {v : Word} {s t : State} (h : writeEffect r v s = .next t) :
    DevicesOnly s t := by
  cases r <;> simp only [writeEffect] at h
  case i2cCtrl =>
    obtain ⟨-, c, -, -, rfl⟩ := writeI2cCtrl_next h
    exact ⟨rfl, rfl, rfl, rfl, rfl, rfl, rfl, rfl, rfl, rfl, List.prefix_rfl⟩
  case spiCtrl =>
    obtain ⟨-, w, -, rfl⟩ := writeSpiCtrl_next h
    exact ⟨rfl, rfl, rfl, rfl, rfl, rfl, rfl, rfl, rfl, rfl, List.prefix_rfl⟩
  case gpioDir => cases h; exact DevicesOnly.putGpio _ _
  case gpioOut => cases h; exact DevicesOnly.putGpio _ _
  case pwmCtrl c => cases h; exact DevicesOnly.setPwm _ _ _
  case pwmPeriod c => cases h; exact DevicesOnly.setPwm _ _ _
  case pwmDuty c => cases h; exact DevicesOnly.setPwm _ _ _
  all_goals first
    | (cases h; done)
    | cases h; exact ⟨rfl, rfl, rfl, rfl, rfl, rfl, rfl, rfl, rfl, rfl, List.prefix_rfl⟩
    | split at h <;> cases h <;> exact ⟨rfl, rfl, rfl, rfl, rfl, rfl, rfl, rfl, rfl, rfl, List.prefix_rfl⟩

/-- The SPI registers after a register write. -/
theorem writeEffect_spi {r : Reg} {v : Word} {s t : State} (h : writeEffect r v s = .next t) :
    t.spi = s.spi ∨
    s.spi.inflight = none ∧
      ((r = .spiTxdata ∧ t.spi = { s.spi with txdata := v }) ∨ (r = .spiConfig ∧ t.spi = { s.spi with config := v }) ∨
        r = .spiCtrl ∧ ∃ w, spiCommand s.params v = some w ∧ t.spi = { s.spi with
          inflight := some { width := w, value := unitOf w s.spi.txdata }, done := false, busy := true }) := by
  cases r <;> simp only [writeEffect] at h
  case i2cCtrl => obtain ⟨-, c, -, -, rfl⟩ := writeI2cCtrl_next h; exact .inl rfl
  case spiCtrl =>
    obtain ⟨hf, w, hw, rfl⟩ := writeSpiCtrl_next h
    exact .inr ⟨hf, .inr (.inr ⟨rfl, w, hw, rfl⟩)⟩
  case spiTxdata =>
    split at h
    · cases h
    · rename_i hf; cases h; exact .inr ⟨by simpa using hf, .inl ⟨rfl, rfl⟩⟩
  case spiConfig =>
    split at h
    · cases h
    · rename_i hf; cases h; exact .inr ⟨by simpa using hf, .inr (.inl ⟨rfl, rfl⟩)⟩
  case pwmCtrl c => cases h; cases c <;> exact .inl rfl
  case pwmPeriod c => cases h; cases c <;> exact .inl rfl
  case pwmDuty c => cases h; cases c <;> exact .inl rfl
  all_goals first
    | (cases h; done)
    | cases h; exact .inl rfl
    | split at h <;> cases h <;> exact .inl rfl

/-- The I2C registers after a register write. -/
theorem writeEffect_i2c {r : Reg} {v : Word} {s t : State} (h : writeEffect r v s = .next t) :
    t.i2c = s.i2c ∨
    s.i2c.cmd = none ∧
      ((r = .i2cData ∧ t.i2c = { s.i2c with data := (v.setWidth 8).setWidth 32 }) ∨
        (r = .i2cPrescale ∧ t.i2c = { s.i2c with prescale := v }) ∨
        r = .i2cCtrl ∧ ∃ c, i2cCommand s.params v s.i2c.data = some c ∧ i2cAllowed s.i2c.own c = true ∧
          t.i2c = { s.i2c with
            done := false, arbLost := false, error := false, ack := s.draws.head.getLsbD 0, cmd := some c }) := by
  cases r <;> simp only [writeEffect] at h
  case spiCtrl => obtain ⟨-, c, -, rfl⟩ := writeSpiCtrl_next h; exact .inl rfl
  case i2cCtrl =>
    obtain ⟨hf, c, hc, ha, rfl⟩ := writeI2cCtrl_next h
    exact .inr ⟨hf, .inr (.inr ⟨rfl, c, hc, ha, rfl⟩)⟩
  case i2cData =>
    split at h
    · cases h
    · rename_i hf; cases h; exact .inr ⟨by simpa using hf, .inl ⟨rfl, rfl⟩⟩
  case i2cPrescale =>
    split at h
    · cases h
    · rename_i hf; cases h; exact .inr ⟨by simpa using hf, .inr (.inl ⟨rfl, rfl⟩)⟩
  case pwmCtrl c => cases h; cases c <;> exact .inl rfl
  case pwmPeriod c => cases h; cases c <;> exact .inl rfl
  case pwmDuty c => cases h; cases c <;> exact .inl rfl
  all_goals first
    | (cases h; done)
    | cases h; exact .inl rfl
    | split at h <;> cases h <;> exact .inl rfl

/-- A register write logs itself, then has its effect. -/
theorem regWrite_next {r : Reg} {v : Word} {s t : State} (h : regWrite r v s = .next t) :
    writeEffect r v (s.emit [.regWr r v]) = .next t := h

theorem regWrite_devicesOnly {r : Reg} {v : Word} {s t : State} (h : regWrite r v s = .next t) : DevicesOnly s t :=
  (DevicesOnly.emit s _).trans (writeEffect_devicesOnly h)

/-- A write statement that goes on has written the register and ended. -/
theorem writeStatement_next {r : Reg} {v : Word} {res : Option Word} {s t : State}
    (h : writeStatement r v res s = .next t) : ∃ u, regWrite r v s = .next u ∧ t = u.finish res := by
  obtain ⟨u, hu, ht⟩ := andThen_eq_next h
  exact ⟨u, hu, by cases ht; rfl⟩

/-- One turn of a poll: the bit is as wanted and `hit` follows, or only the read has happened. -/
theorem poll_next {r : Reg} {bit : Nat} {want : Bool} {hit : Word → State → State} {s t : State}
    (h : poll r bit want hit s = .next t) :
    ((regRead r s).1.getLsbD bit = want ∧ t = hit (regRead r s).1 (regRead r s).2) ∨
      ((regRead r s).1.getLsbD bit ≠ want ∧ t = (regRead r s).2) := by
  unfold poll at h
  cases h
  split
  · exact .inl ⟨‹_›, rfl⟩
  · exact .inr ⟨‹_›, rfl⟩

/-- A read-modify-write reads and keeps the word, or writes what `f` makes of the word it kept. -/
theorem rmw_next {r : Reg} {f : Word → Word} {res : Option Word} {s t : State} (h : rmw r f res s = .next t) :
    (s.cur.phase = .idle ∧ t = (regRead r s).2.goTo .rmwWrite { Locals.none with v := (regRead r s).1 }) ∨
      (s.cur.phase = .rmwWrite ∧ ∃ u, regWrite r (f s.cur.loc.v) s = .next u ∧ t = u.finish res) := by
  unfold rmw at h
  split at h
  · cases h; exact .inl ⟨‹_›, rfl⟩
  · exact .inr ⟨‹_›, writeStatement_next h⟩
  · cases h

/-! ### Memory -/

/-- A memory read that goes on was aligned and inside the address space. -/
theorem memRead_next {a : Nat} {w : SpiWidth} {s t : State} {k : Word → Result} (h : memRead a w s k = .next t) :
    a % SpiWidth.bytes w = 0 ∧ a + SpiWidth.bytes w ≤ Config.addressSpace ∧ k (s.mem.load a w) = .next t := by
  unfold memRead at h
  split at h
  · cases h
  · split at h
    · cases h
    · exact ⟨by omega, by omega, h⟩

/-- A memory write that goes on was aligned and inside the address space, and stored the unit. -/
theorem memWrite_next {a : Nat} {w : SpiWidth} {v : Word} {s t : State} (h : memWrite a w v s = .next t) :
    a % SpiWidth.bytes w = 0 ∧ a + SpiWidth.bytes w ≤ Config.addressSpace ∧ t = { s with mem := s.mem.store a w v } := by
  unfold memWrite at h
  split at h
  · cases h
  · split at h
    · cases h
    · cases h; exact ⟨by omega, by omega, rfl⟩

/-! ### Control registers -/

/-- A control-register write changes the control registers only. -/
theorem csrWrite_eq (c : CsrName) (v : Word) (s : State) : csrWrite c v s = { s with csr := (csrWrite c v s).csr } := by
  cases c <;> rfl

/-- CsrSet reads, writes, then returns. -/
theorem csrSet_next {c : CsrName} {m : Word} {s t : State} (h : csrSet c m s = .next t) :
    (s.cur.phase = .idle ∧ t = (csrRead c s).2.goTo .csrWrite { Locals.none with v := (csrRead c s).1 }) ∨
    (s.cur.phase = .csrWrite ∧ t = (csrWrite c (s.cur.loc.v ||| m) s).goTo .ret Locals.none) ∨
    (s.cur.phase = .ret ∧ t = s.finish none) := by
  unfold csrSet at h
  split at h
  · cases h; exact .inl ⟨‹_›, rfl⟩
  · cases h; exact .inr (.inl ⟨‹_›, rfl⟩)
  · cases h; exact .inr (.inr ⟨‹_›, rfl⟩)
  · cases h

/-- CsrClear reads, then writes. -/
theorem csrClear_next {c : CsrName} {m : Word} {s t : State} (h : csrClear c m s = .next t) :
    (s.cur.phase = .idle ∧ t = (csrRead c s).2.goTo .csrWrite { Locals.none with v := (csrRead c s).1 }) ∨
    (s.cur.phase = .csrWrite ∧ t = (csrWrite c (s.cur.loc.v &&& ~~~m) s).finish none) := by
  unfold csrClear at h
  split at h
  · cases h; exact .inl ⟨‹_›, rfl⟩
  · cases h; exact .inr ⟨‹_›, rfl⟩
  · cases h

/-! ### Traps and handlers -/

/-- A trap that is taken: armed, not nested, and the state of 60_exceptions.md R377. -/
theorem takeTrap_next {cause : Word} {s t : State} (h : takeTrap cause s = .next t) :
    s.disp.state = .armed ∧ s.trapDepth = 0 ∧ t = { s with
      csr := { s.csr with
        mepc := resumePoint s, mcause := cause, mstatusMPIE := s.csr.mstatusMIE, mstatusMIE := false }
      trapDepth := 1
      history := s.history ++ [.trapTaken cause]
      susp := s.cur :: s.susp
      cur := stubFrame s.csr.mtvec } := by
  unfold takeTrap at h
  split at h
  · cases h
  · rename_i hd
    split at h
    · cases h
    · rename_i hn
      have hz : s.trapDepth = 0 := by omega
      cases h
      refine ⟨?_, hz, by rw [hz]⟩
      cases hs : s.disp.state
      · exact absurd hs hd
      · rfl

/-- Where control goes when contexts are dropped down to a resume point. -/
theorem resumeAt_next {depth : Nat} {s t : State} (h : resumeAt depth s = .next t) :
    ∃ f fs, s.susp.drop (s.susp.length - (depth + 1)) = f :: fs ∧ t = { s with cur := f, susp := fs } := by
  unfold resumeAt at h
  split at h
  · cases h; exact ⟨_, _, ‹_›, rfl⟩
  · cases h

/-- A handler's end resumes the context below. -/
theorem handlerEnd_next {s t : State} (h : handlerEnd s = .next t) :
    ∃ f fs, s.susp = f :: fs ∧ t = { s with cur := f, susp := fs } := by
  unfold handlerEnd at h
  split at h
  · cases h; exact ⟨_, _, ‹_›, rfl⟩
  · cases h

/-! ### The other agents -/

/-- The SPI engine changes nothing with no unit in flight, else completes the unit. -/
theorem spiEngine_eq (a : Word) (s : State) :
    (s.spi.inflight = none ∧ spiEngine a s = s) ∨
      ∃ u, s.spi.inflight = some u ∧ spiEngine a s = { s with
        spi := { s.spi with rxdata := unitOf u.width a, inflight := none, busy := false, done := true }
        history := s.history ++ [.spiUnit u.width u.value (unitOf u.width a)] } := by
  unfold spiEngine
  split
  · exact .inr ⟨_, ‹_›, rfl⟩
  · exact .inl ⟨‹_›, rfl⟩

/-- The I2C engine completes the phase in flight by a row of the table, or changes nothing. -/
theorem i2cEngine_eq (o : I2cOutcome) (s : State) :
    i2cEngine o s = s ∨ ∃ c row, s.i2c.cmd = some c ∧ i2cTable s.params s.i2c.own c o = some row ∧
      i2cEngine o s = { s with
        i2c := s.i2c.complete row s.draws.head
        history := s.history ++ row.events
        draws := s.draws.next } := by
  unfold i2cEngine
  split
  · split
    · exact .inr ⟨_, _, ‹_›, ‹_›, rfl⟩
    · exact .inl rfl
  · exact .inl rfl

/-- Another agent's move changes device registers only, but for the one that raises an exception. -/
theorem deviceMove_devicesOnly {m : Move} {s : State} (h : ∀ code, m ≠ .raise code) : DevicesOnly s (deviceMove m s) := by
  cases m with
  | host => exact DevicesOnly.refl s
  | spi a =>
    rcases spiEngine_eq a s with ⟨-, h⟩ | ⟨u, -, h⟩ <;> simp only [deviceMove, h]
    · exact DevicesOnly.refl s
    · exact ⟨rfl, rfl, rfl, rfl, rfl, rfl, rfl, rfl, rfl, rfl, List.prefix_append _ _⟩
  | i2c o =>
    rcases i2cEngine_eq o s with h | ⟨c, row, -, -, h⟩ <;> simp only [deviceMove, h]
    · exact DevicesOnly.refl s
    · exact ⟨rfl, rfl, rfl, rfl, rfl, rfl, rfl, rfl, rfl, rfl, List.prefix_append _ _⟩
  | detect => exact ⟨rfl, rfl, rfl, rfl, rfl, rfl, rfl, rfl, rfl, rfl, List.prefix_append _ _⟩
  | pads ext => exact DevicesOnly.putGpio _ _
  | extBusy b =>
    simp only [deviceMove, extBusyChange]
    split <;> exact ⟨rfl, rfl, rfl, rfl, rfl, rfl, rfl, rfl, rfl, rfl, List.prefix_rfl⟩
  | timer k => exact ⟨rfl, rfl, rfl, rfl, rfl, rfl, rfl, rfl, rfl, rfl, List.prefix_rfl⟩
  | raise code => exact absurd rfl (h code)

end Sys2Proof.Machine
end

