-- ==== Sys2Proof/Laws/Effects.lean ====
section
/-! SUPPORT. Everything a micro-step of an instruction can do: a chain of register reads, register writes of its own list,
control-register accesses, table writes and buffer stores, or the call of a handler. -/

namespace Sys2Proof.Machine

/-! ### Chains of effects -/

/-- `t` comes from `s` by the shared operations of an instruction whose register writes all meet `W`. -/
inductive Effect (W : Reg → Word → Prop) (s : State) : State → Prop
  | start : Effect W s s
  | draw {t : State} : Effect W s t → Effect W s t.takeDraw
  | read {t : State} (r : Reg) : Effect W s t → Effect W s (regRead r t).2
  | write {t u : State} {r : Reg} {v : Word} : Effect W s t → W r v → regWrite r v t = .next u → Effect W s u
  | move {t : State} (ph : Phase) (l : Locals) : Effect W s t → Effect W s (t.goTo ph l)
  | finish {t : State} (res : Option Word) : Effect W s t → Effect W s (t.finish res)
  | csrRead {t : State} (c : CsrName) : Effect W s t → Effect W s (csrRead c t).2
  | csrWrite {t : State} (c : CsrName) (v : Word) : Effect W s t → Effect W s (csrWrite c v t)
  | setTable {t : State} (n : Nat) (h : Word) : Effect W s t → Effect W s (t.bind n h)
  | arm {t : State} : Effect W s t → Effect W s { t with disp := { t.disp with state := .armed } }
  | store {t u : State} {a : Nat} {w : SpiWidth} {v : Word} : Effect W s t → memWrite a w v t = .next u → Effect W s u
  | returned {t : State} (n : Nat) : Effect W s t → Effect W s (t.emit [.handlerReturn n])

/-- Every next state of `r` is a chain of effects away from `s`. -/
def Does (W : Reg → Word → Prop) (s : State) (r : Result) : Prop := ∀ t, r = .next t → Effect W s t

section
variable {W : Reg → Word → Prop} {s t : State}

theorem Does.next (h : Effect W s t) : Does W s (.next t) := by
  intro u hu; cases hu; exact h

theorem Does.fault (f : Fault) : Does W s (.fault f) := by
  intro u hu; cases hu

theorem Does.refused (r : Refusal) : Does W s (.refused r) := by
  intro u hu; cases hu

theorem Does.ite {c : Prop} [Decidable c] {a b : Result} (ha : Does W s a) (hb : Does W s b) :
    Does W s (if c then a else b) := by
  split
  · exact ha
  · exact hb

theorem Effect.ite {c : Prop} [Decidable c] {a b : State} (ha : Effect W s a) (hb : Effect W s b) :
    Effect W s (if c then a else b) := by
  split
  · exact ha
  · exact hb

theorem Does.write {r : Reg} {v : Word} {f : State → Result} (h : Effect W s t) (hw : W r v)
    (hf : ∀ u, Effect W s u → Does W s (f u)) : Does W s (andThen (regWrite r v t) f) := by
  intro u hu
  obtain ⟨x, hx, hu⟩ := andThen_eq_next hu
  exact hf x (h.write hw hx) u hu

theorem Does.store {a : Nat} {w : SpiWidth} {v : Word} {f : State → Result} (h : Effect W s t)
    (hf : ∀ u, Effect W s u → Does W s (f u)) : Does W s (andThen (memWrite a w v t) f) := by
  intro u hu
  obtain ⟨x, hx, hu⟩ := andThen_eq_next hu
  exact hf x (h.store hx) u hu

theorem Does.load {a : Nat} {w : SpiWidth} {k : Word → Result} (hk : ∀ v, Does W s (k v)) :
    Does W s (memRead a w t k) := by
  intro u hu
  exact hk _ u (memRead_next hu).2.2

theorem Does.readStatement (r : Reg) (h : Effect W s t) : Does W s (readStatement r t) :=
  Does.next ((h.read r).finish _)

theorem Does.readThrough (r : Reg) (f : Word → Word) (h : Effect W s t) : Does W s (readThrough r f t) :=
  Does.next ((h.read r).finish _)

theorem Does.writeStatement {r : Reg} {v : Word} (res : Option Word) (h : Effect W s t) (hw : W r v) :
    Does W s (writeStatement r v res t) :=
  Does.write h hw fun _ hu => Does.next (hu.finish _)

theorem Does.returnNow (res : Option Word) (h : Effect W s t) : Does W s (returnNow res t) := Does.next (h.finish _)

theorem Does.poll (r : Reg) (bit : Nat) (want : Bool) {hit : Word → State → State} (h : Effect W s t)
    (hh : ∀ v u, Effect W s u → Effect W s (hit v u)) : Does W s (poll r bit want hit t) :=
  Does.next (Effect.ite (hh _ _ (h.read r)) (h.read r))

theorem Does.rmw {r : Reg} {f : Word → Word} (res : Option Word) (h : Effect W s t) (hw : ∀ v, W r (f v)) :
    Does W s (rmw r f res t) := by
  unfold Machine.rmw
  split
  · exact Does.next ((h.read r).move _ _)
  · exact Does.writeStatement res h (hw _)
  · exact Does.fault _

theorem Does.withOperand {bits : Nat} {x : Word} {k : Word → State → Result} (h : Effect W s t)
    (hk : ∀ y u, Effect W s u → Does W s (k y u)) : Does W s (withOperand bits x k t) :=
  Does.ite (hk _ _ h) (hk _ _ h.draw)

theorem Does.rmwOperand {r : Reg} {bits : Nat} {x : Word} {f : Word → Word → Word} (res : Option Word) (h : Effect W s t)
    (hw : ∀ y v, W r (f y v)) : Does W s (rmwOperand r bits x f res t) := by
  unfold Machine.rmwOperand
  split
  · exact Does.withOperand h fun y _ hu => Does.rmw res hu (hw y)
  · exact Does.rmw res h (hw x)

theorem Does.csrSet (c : CsrName) (m : Word) (h : Effect W s t) : Does W s (csrSet c m t) := by
  unfold Machine.csrSet
  split
  · exact Does.next ((h.csrRead c).move _ _)
  · exact Does.next ((h.csrWrite c _).move _ _)
  · exact Does.returnNow _ h
  · exact Does.fault _

theorem Does.csrClear (c : CsrName) (m : Word) (h : Effect W s t) : Does W s (csrClear c m t) := by
  unfold Machine.csrClear
  split
  · exact Does.next ((h.csrRead c).move _ _)
  · exact Does.next ((h.csrWrite c _).finish _)
  · exact Does.fault _

/-! ### GPIO, dispatcher, PWM -/

theorem Does.pinOp {pin : Word} {body : State → Result} (h : Effect W s t) (hb : Does W s (body t)) :
    Does W s (pinOp pin body t) := Does.ite hb (Does.returnNow _ h)

theorem Does.afterInit {body : State → Result} (hb : Does W s (body t)) : Does W s (afterInit body t) :=
  Does.ite (Does.refused _) hb

theorem Does.clearEntry (n : Nat) (h : Effect W s t) : Does W s (clearEntry n t) := Does.next ((h.setTable _ _).move _ _)

theorem Does.channelOp {ch : Word} {body : Chan → State → Result} (h : Effect W s t)
    (hb : ∀ c, channelOf ch = some c → Does W s (body c t)) : Does W s (channelOp ch body t) := by
  unfold Machine.channelOp
  split
  · exact hb _ ‹_›
  · exact Does.returnNow _ h

theorem Does.pwmInit {c : Chan} (h : Effect W s t)
    (hw : W (.pwmCtrl c) 0#32 ∧ W (.pwmPeriod c) 0#32 ∧ W (.pwmDuty c) 0#32) : Does W s (pwmInitSteps c t) := by
  unfold pwmInitSteps
  split
  · exact Does.write h hw.1 fun _ hu => Does.next (hu.move _ _)
  · exact Does.write h hw.2.1 fun _ hu => Does.next (hu.move _ _)
  · exact Does.writeStatement _ h hw.2.2
  · exact Does.fault _

theorem Does.pwmStart {c : Chan} {period duty : Word} (h : Effect W s t)
    (hw : W (.pwmPeriod c) period ∧ W (.pwmDuty c) duty ∧ ∀ v, W (.pwmCtrl c) v) :
    Does W s (pwmStartSteps period duty c t) := by
  unfold pwmStartSteps
  split
  · exact Does.write h hw.1 fun _ hu => Does.next (hu.move _ _)
  · exact Does.write h hw.2.1 fun _ hu => Does.next (hu.move _ _)
  · exact Does.next ((h.read _).move _ _)
  · exact Does.writeStatement _ h (hw.2.2 _)
  · exact Does.fault _

/-! ### SPI -/

theorem Does.xferSteps {w : SpiWidth} {k : Word → State → State} (h : Effect W s t)
    (hw : ∀ v, W .spiTxdata v ∧ W .spiCtrl v) (hk : ∀ v u, Effect W s u → Effect W s (k v u)) :
    Does W s (xferSteps w k t) := by
  unfold Machine.xferSteps
  split
  · exact Does.write h (hw _).1 fun _ hu => Does.next (hu.move _ _)
  · exact Does.write h (hw _).2 fun _ hu => Does.next (hu.move _ _)
  · exact Does.poll _ _ _ h fun _ _ hu => hu.move _ _
  · exact Does.next (hk _ _ (h.read _))
  · exact Does.fault _

theorem Does.xferOne {w : SpiWidth} {tx : Word} (h : Effect W s t) (hw : ∀ v, W .spiTxdata v ∧ W .spiCtrl v) :
    Does W s (xferOne w tx t) := by
  unfold Machine.xferOne xferFrom
  split
  · exact Does.withOperand h fun _ _ hu => Does.xferSteps (hu.move _ _) hw fun _ _ hv => hv.finish _
  · exact Does.xferSteps h hw fun _ _ hu => hu.finish _

theorem Effect.nextUnit {n i : Nat} (h : Effect W s t) : Effect W s (nextUnit n i t) :=
  Effect.ite (h.move _ _) (h.finish _)

theorem Effect.unitReceived {b : Option Word} {n i : Nat} {r : Word} (h : Effect W s t) :
    Effect W s (unitReceived b n i r t) := by
  unfold Machine.unitReceived
  split
  · exact h.move _ _
  · exact h.nextUnit

theorem Does.beginUnit {w : SpiWidth} {a b : Option Word} {n i : Nat} (h : Effect W s t)
    (hw : ∀ v, W .spiTxdata v ∧ W .spiCtrl v) : Does W s (beginUnit w a b n i t) := by
  unfold Machine.beginUnit xferFrom
  split
  · exact Does.load fun _ => Does.next (h.move _ _)
  · exact Does.xferSteps (h.move _ _) hw fun _ _ hu => hu.unitReceived

theorem Does.xferMany {w : SpiWidth} {a b : Option Word} {c : Word} (h : Effect W s t)
    (hw : ∀ v, W .spiTxdata v ∧ W .spiCtrl v) : Does W s (xferMany w a b c t) := by
  unfold Machine.xferMany
  dsimp only
  split
  · exact Does.ite (Does.returnNow _ h) (Does.ite (Does.refused _) (Does.beginUnit h hw))
  · exact Does.beginUnit h hw
  · unfold storeUnit
    split
    · exact Does.store h fun _ hu => Does.next hu.nextUnit
    · exact Does.fault _
  · exact Does.xferSteps h hw fun _ _ hu => hu.unitReceived

theorem Does.burstChecked {buf len : Word} {body : SpiWidth → State → Result} (h : Effect W s t)
    (hb : ∀ w, Does W s (body w t)) : Does W s (burstChecked buf len body t) := by
  unfold Machine.burstChecked
  split
  · exact Does.returnNow _ h
  · exact Does.ite (Does.returnNow _ h) (Does.ite (Does.refused _) (hb _))

theorem Does.burst {buf len : Word} (h : Effect W s t) (hw : ∀ v, W .spiTxdata v ∧ W .spiCtrl v) :
    Does W s (execSpiBurst buf len t) := by
  unfold execSpiBurst
  split
  · exact Does.next ((h.read _).move _ _)
  · refine Does.burstChecked h fun w => Does.ite (Does.load fun _ => Does.next (h.move _ _)) (Does.ite ?_ ?_)
    · exact Does.poll _ _ _ (h.move _ _) fun _ _ hu => hu.finish _
    · exact Does.returnNow _ h
  · exact Does.write h (hw _).1 fun _ hu => Does.next (hu.move _ _)
  · exact Does.burstChecked h fun w => Does.write h (hw _).2 fun _ hu => Does.next (hu.move _ _)
  · exact Does.poll _ _ _ h fun _ _ hu => hu.finish _
  · exact Does.fault _

/-! ### I2C -/

theorem Does.waitIdle {k : State → State} (h : Effect W s t) (hk : ∀ u, Effect W s u → Effect W s (k u)) :
    Does W s (waitIdle k t) := Does.poll _ _ _ h fun _ u hu => hk u hu

theorem Does.waitDone {c : Bool} {bad : Word → State → State} {k : State → State} (h : Effect W s t)
    (hb : ∀ v u, Effect W s u → Effect W s (bad v u)) (hk : ∀ u, Effect W s u → Effect W s (k u)) :
    Does W s (waitDone c bad k t) :=
  Does.poll _ _ _ h fun _ _ hu => Effect.ite (hk _ hu) (hb _ _ hu)

theorem Does.i2cPut {r : Reg} {v : Word} {st : I2cState} {pos : I2cPos} (h : Effect W s t) (hw : W r v) :
    Does W s (i2cPut r v st pos t) := Does.write h hw fun _ hu => Does.next (hu.move _ _)

theorem Does.putDataCommand {j : I2cJob} (h : Effect W s t) (hw : ∀ v, W .i2cCtrl v) :
    Does W s (putDataCommand j t) := Does.withOperand h fun _ _ hu => Does.i2cPut hu (hw _)

theorem Does.abortStep {done : Word → State → State} (h : Effect W s t) (hw : ∀ v, W .i2cCtrl v)
    (hd : ∀ v u, Effect W s u → Effect W s (done v u)) : Does W s (abortStep done t) :=
  Does.write h (hw _) fun _ hu => Does.next (Effect.ite (hu.move _ _) (hd _ _ hu))

theorem Effect.nextByte {j : I2cJob} {i : Nat} (h : Effect W s t) : Effect W s (nextByte j i t) :=
  Effect.ite (h.move _ _) (h.move _ _)

theorem Effect.byteReceived {j : I2cJob} {v : Word} (h : Effect W s t) : Effect W s (byteReceived j v t) := by
  unfold Machine.byteReceived
  split
  · exact h.move _ _
  · exact (h.move _ _).nextByte

theorem Does.loadByte {j : I2cJob} (h : Effect W s t) : Does W s (loadByte j t) := by
  unfold Machine.loadByte
  split
  · exact Does.load fun _ => Does.next (h.move _ _)
  · exact Does.fault _

theorem Does.storeByte {j : I2cJob} (h : Effect W s t) : Does W s (storeByte j t) := by
  unfold Machine.storeByte
  split
  · exact Does.store h fun _ hu => Does.next hu.nextByte
  · exact Does.fault _

theorem Does.simpleSteps {j : I2cJob} {done : Word → State → State} {st : I2cState} {pos : I2cPos} (h : Effect W s t)
    (hw : ∀ v, W .i2cCtrl v ∧ W .i2cData v) (hd : ∀ v u, Effect W s u → Effect W s (done v u)) :
    Does W s (simpleSteps j done st pos t) := by
  have hm := fun ph l u (hu : Effect W s u) => hu.move ph l
  unfold Machine.simpleSteps
  split
  · exact Does.waitIdle h fun u hu => hm _ _ u hu
  · exact Does.i2cPut h (hw _).2
  · exact Does.i2cPut h (hw _).1
  · exact Does.waitDone h (fun _ u hu => hm _ _ u hu) fun _ hu => hu.nextByte
  · exact Does.loadByte h
  · exact Does.i2cPut h (hw _).2
  · exact Does.putDataCommand h fun v => (hw v).1
  · exact Does.waitDone h (fun _ u hu => hm _ _ u hu) fun u hu => Effect.ite (hm _ _ u hu) hu.nextByte
  · exact Does.next (h.read _).byteReceived
  · exact Does.storeByte h
  · exact Does.i2cPut h (hw _).1
  · exact Does.waitDone h hd fun u hu => hm _ _ u hu
  · exact Does.waitIdle h fun _ hu => hd _ _ hu
  · exact Does.abortStep h (fun v => (hw v).1) hd
  · exact Does.waitIdle h fun _ hu => hd _ _ hu
  · exact Does.fault _

theorem Does.i2cBegin {x : Word} {b : Option Word} {n : Nat} {body : State → Result}
    (hb : Does W s (body (t.toI2c .idle .waitIdle Locals.none))) : Does W s (i2cBegin x b n body t) :=
  Does.ite (Does.refused _) (Does.ite (Does.refused _) hb)

theorem Does.simple {j : I2cJob} {done : Word → State → State} (h : Effect W s t)
    (hw : ∀ v, W .i2cCtrl v ∧ W .i2cData v) (hd : ∀ v u, Effect W s u → Effect W s (done v u)) :
    Does W s (simple j done t) := by
  unfold Machine.simple
  split
  · exact Does.i2cBegin (Does.simpleSteps (h.move _ _) hw hd)
  · exact Does.simpleSteps h hw hd
  · exact Does.fault _

theorem Effect.rtwbTurn {c : Word} (h : Effect W s t) : Effect W s (rtwbTurn c t) :=
  Effect.ite (h.move _ _) (h.finish _)

theorem Does.rtwb {x : Word} (h : Effect W s t) (hw : ∀ v, W .i2cCtrl v ∧ W .i2cData v) :
    Does W s (execI2cRtwb x t) := by
  have h1 : Does W s (Machine.simple (rtwbRead x) Machine.rtwbTurn t) := Does.simple h hw fun _ _ hu => hu.rtwbTurn
  have h2 : Does W s (Machine.simple (rtwbWrite x) returnCode t) := Does.simple h hw fun _ _ hu => hu.finish _
  unfold execI2cRtwb
  split
  · exact h1
  · exact Does.ite h2 h1

theorem Does.repeatedStart {x : Word} {st : I2cState} {pos : I2cPos} (h : Effect W s t)
    (hw : ∀ v, W .i2cCtrl v ∧ W .i2cData v) : Does W s (repeatedStartSteps x st pos t) := by
  have hm := fun ph l u (hu : Effect W s u) => hu.move ph l
  unfold repeatedStartSteps
  split
  · exact Does.waitIdle h fun u hu => hm _ _ u hu
  · exact Does.i2cPut h (hw _).2
  · exact Does.i2cPut h (hw _).1
  · exact Does.waitDone h (fun _ u hu => hm _ _ u hu) fun u hu => hm _ _ u hu
  · exact Does.i2cPut h (hw _).1
  · exact Does.waitDone h (fun _ u hu => hm _ _ u hu) fun u hu => Effect.ite (hm _ _ u hu) (hm _ _ u hu)
  · exact Does.next ((h.read _).move _ _)
  · exact Does.i2cPut h (hw _).2
  · exact Does.i2cPut h (hw _).1
  · exact Does.i2cPut h (hw _).2
  · exact Does.i2cPut h (hw _).1
  · exact Does.waitIdle h fun _ hu => hu.finish _
  · exact Does.abortStep h (fun v => (hw v).1) fun _ _ hu => hu.finish _
  · exact Does.waitIdle h fun _ hu => hu.finish _
  · exact Does.fault _

theorem Does.rtwbRs {x : Word} (h : Effect W s t) (hw : ∀ v, W .i2cCtrl v ∧ W .i2cData v) :
    Does W s (execI2cRtwbRs x t) := by
  unfold execI2cRtwbRs
  split
  · exact Does.i2cBegin (Does.repeatedStart (h.move _ _) hw)
  · exact Does.repeatedStart h hw
  · exact Does.fault _

end

/-! ### Every instruction -/

/-- The register writes instruction `i` may make: the registers, and for GPIO.INT_CLR the word. -/
def Writes (i : Instr) (r : Reg) (v : Word) : Prop :=
  match i with
  | .wrGpioDir _ | .gpioSetDir _ _ | .gpioSetDirMask _ => r = .gpioDir
  | .wrGpioOut _ | .gpioSetPin _ | .gpioClearPin _ | .gpioTogglePin _ | .gpioWritePin _ _ | .gpioWrite _ | .gpioSetAll
  | .gpioClearAll | .gpioToggleAll => r = .gpioOut
  | .wrGpioIntEn _ | .gpioIntEnable _ | .gpioIntDisable _ => r = .gpioIntEn
  | .wrGpioIntClr w => r = .gpioIntClr ∧ v = w
  | .gpioIntClear pin => r = .gpioIntClr ∧ v = pinBit pin
  | .wrTimerMtimeLo _ => r = .mtimeLo
  | .wrTimerMtimeHi _ => r = .mtimeHi
  | .wrTimerMtimecmpLo _ => r = .mtimecmpLo
  | .wrTimerMtimecmpHi _ => r = .mtimecmpHi
  | .wrPwm0Ctrl _ => r = .pwmCtrl .c0
  | .wrPwm0Period _ => r = .pwmPeriod .c0
  | .wrPwm0Duty _ => r = .pwmDuty .c0
  | .wrPwm1Ctrl _ => r = .pwmCtrl .c1
  | .wrPwm1Period _ => r = .pwmPeriod .c1
  | .wrPwm1Duty _ => r = .pwmDuty .c1
  | .pwmInit ch | .pwmStart ch _ _ =>
    ∃ c, channelOf ch = some c ∧ (r = .pwmCtrl c ∨ r = .pwmPeriod c ∨ r = .pwmDuty c)
  | .pwmSetPeriod ch _ => ∃ c, channelOf ch = some c ∧ r = .pwmPeriod c
  | .pwmSetDuty ch _ => ∃ c, channelOf ch = some c ∧ r = .pwmDuty c
  | .pwmEnable ch | .pwmDisable ch => ∃ c, channelOf ch = some c ∧ r = .pwmCtrl c
  | .wrI2cCtrl _ | .i2cStart | .i2cRestart | .i2cWrite | .i2cReadAck | .i2cReadNack | .i2cStop => r = .i2cCtrl
  | .wrI2cData _ => r = .i2cData
  | .wrI2cPrescale _ | .i2cSetPrescale _ => r = .i2cPrescale
  | .i2cWriteN _ _ _ | .i2cReadN _ _ _ _ | .i2cRtwb _ | .i2cRtwbRs _ => r = .i2cCtrl ∨ r = .i2cData
  | .wrSpiCtrl _ | .spiStart8 | .spiStart16 | .spiStart32 => r = .spiCtrl
  | .wrSpiTxdata _ => r = .spiTxdata
  | .wrSpiConfig _ | .spiSetDiv _ | .spiSetMode _ => r = .spiConfig
  | .spiXfer8 _ | .spiXfer16 _ | .spiXfer32 _ | .spiXfern8 _ _ _ | .spiXfern16 _ _ _ | .spiXfern32 _ _ _
  | .spiBurst _ _ => r = .spiTxdata ∨ r = .spiCtrl
  | _ => False

/-- A micro-step of an instruction is a chain of effects with the instruction's own register writes; the one other thing it
may do is IRQ.DISPATCH's call of a handler (42_irq_dispatcher.md R202). -/
theorem exec_effect (i : Instr) (s : State) :
    Does (Writes i) s (exec i s) ∨
      ∃ c, i = .irqDispatch c ∧ s.cur.phase = .idle ∧ ∃ n h, exec i s = .next (callHandler n h s) := by
  have h0 : Effect (Writes i) s s := .start
  cases i
  case irqDispatch c =>
    simp only [exec, execIrqDispatch]
    split
    · rename_i hp
      unfold dispatch
      split
      · exact .inl (Does.fault _)
      split
      · exact .inl (Does.returnNow _ h0)
      split
      · exact .inl (Does.returnNow _ h0)
      split
      · exact .inl (Does.returnNow _ h0)
      · exact .inr ⟨c, rfl, hp, _, _, rfl⟩
    · exact .inl (Does.next ((h0.returned _).finish _))
    · exact .inl (Does.fault _)
  case irqInit e =>
    left
    simp only [exec, execIrqInit]
    split
    · exact Does.clearEntry _ h0
    · exact Does.clearEntry _ h0
    · exact Does.next ((h0.csrWrite _ _).arm.finish _)
    · exact Does.fault _
  case irqRegister n h =>
    left
    simp only [exec, execIrqRegister]
    refine Does.afterInit ?_
    exact Does.ite (Does.next ((h0.setTable _ _).finish _)) (Does.returnNow _ h0)
  case irqGlobalEnable => exact .inl (Does.afterInit (Does.csrSet _ _ h0))
  case irqEnableTimer => exact .inl (Does.afterInit (Does.csrSet _ _ h0))
  case irqEnableExternal => exact .inl (Does.afterInit (Does.csrSet _ _ h0))
  case irqGlobalDisable => exact .inl (Does.csrClear _ _ h0)
  case irqDisableTimer => exact .inl (Does.csrClear _ _ h0)
  case irqDisableExternal => exact .inl (Does.csrClear _ _ h0)
  case spiXfer8 => exact .inl (Does.xferOne h0 fun _ => ⟨.inl rfl, .inr rfl⟩)
  case spiXfer16 => exact .inl (Does.xferOne h0 fun _ => ⟨.inl rfl, .inr rfl⟩)
  case spiXfer32 => exact .inl (Does.xferOne h0 fun _ => ⟨.inl rfl, .inr rfl⟩)
  case spiXfern8 => exact .inl (Does.xferMany h0 fun _ => ⟨.inl rfl, .inr rfl⟩)
  case spiXfern16 => exact .inl (Does.xferMany h0 fun _ => ⟨.inl rfl, .inr rfl⟩)
  case spiXfern32 => exact .inl (Does.xferMany h0 fun _ => ⟨.inl rfl, .inr rfl⟩)
  case spiBurst => exact .inl (Does.burst h0 fun _ => ⟨.inl rfl, .inr rfl⟩)
  case spiSetDiv => exact .inl (Does.rmw _ h0 fun _ => rfl)
  case spiSetMode => exact .inl (Does.rmw _ h0 fun _ => rfl)
  case i2cWriteN => exact .inl (Does.simple h0 (fun _ => ⟨.inl rfl, .inr rfl⟩) fun _ _ hu => hu.finish _)
  case i2cReadN => exact .inl (Does.simple h0 (fun _ => ⟨.inl rfl, .inr rfl⟩) fun _ _ hu => hu.finish _)
  case i2cRtwb => exact .inl (Does.rtwb h0 fun _ => ⟨.inl rfl, .inr rfl⟩)
  case i2cRtwbRs => exact .inl (Does.rtwbRs h0 fun _ => ⟨.inl rfl, .inr rfl⟩)
  case pwmInit =>
    exact .inl (Does.channelOp h0 fun c hc =>
      Does.pwmInit h0 ⟨⟨c, hc, .inl rfl⟩, ⟨c, hc, .inr (.inl rfl)⟩, ⟨c, hc, .inr (.inr rfl)⟩⟩)
  case pwmStart =>
    left
    simp only [exec, execPwmStart]
    refine Does.channelOp h0 fun c hc => ?_
    refine Does.ite (Does.pwmStart h0 ?_) (Does.returnNow _ h0)
    exact ⟨⟨c, hc, .inr (.inl rfl)⟩, ⟨c, hc, .inr (.inr rfl)⟩, fun _ => ⟨c, hc, .inl rfl⟩⟩
  case pwmSetPeriod =>
    left
    simp only [exec, execPwmSetPeriod]
    refine Does.channelOp h0 fun c hc => ?_
    exact Does.ite (Does.writeStatement _ h0 ⟨c, hc, rfl⟩) (Does.returnNow _ h0)
  case pwmSetDuty =>
    left
    simp only [exec, execPwmSetDuty]
    refine Does.channelOp h0 fun c hc => ?_
    exact Does.ite (Does.writeStatement _ h0 ⟨c, hc, rfl⟩) (Does.returnNow _ h0)
  case pwmEnable => exact .inl (Does.channelOp h0 fun c hc => Does.rmw _ h0 fun _ => ⟨c, hc, rfl⟩)
  case pwmDisable => exact .inl (Does.channelOp h0 fun c hc => Does.rmw _ h0 fun _ => ⟨c, hc, rfl⟩)
  case pwmReadCounter => exact .inl (Does.channelOp h0 fun _ _ => Does.readThrough _ _ h0)
  case gpioGetDir => exact .inl (Does.pinOp h0 (Does.readThrough _ _ h0))
  case gpioReadPin => exact .inl (Does.pinOp h0 (Does.readThrough _ _ h0))
  case gpioIntClear => exact .inl (Does.pinOp h0 (Does.writeStatement _ h0 ⟨rfl, rfl⟩))
  case wrGpioIntClr => exact .inl (Does.writeStatement _ h0 ⟨rfl, rfl⟩)
  case gpioToggleAll => exact .inl (Does.rmw _ h0 fun _ => rfl)
  case gpioSetDir => exact .inl (Does.pinOp h0 (Does.rmwOperand _ h0 fun _ _ => rfl))
  case gpioWritePin => exact .inl (Does.pinOp h0 (Does.rmwOperand _ h0 fun _ _ => rfl))
  all_goals first
    | exact .inl (Does.readStatement _ h0)
    | exact .inl (Does.writeStatement _ h0 rfl)
    | exact .inl (Does.pinOp h0 (Does.rmw _ h0 fun _ => rfl))

end Sys2Proof.Machine
end

