-- ==== Sys2Proof/Laws/PerInstr.lean ====
section
/-! SUPPORT. The families of statements made per instruction (LAWS.json). -/

namespace Sys2Proof.Laws

/-- The encoding of an instruction has the one length of its format (30_encoding.md R100). -/
def EncodedLength.Statement (i : Instr) : Prop := ∀ p : Params, (encode p i).2.length = (encode p i).1.size

theorem EncodedLength.rdGpioDir : EncodedLength.Statement (.rdGpioDir) := fun _ => rfl
theorem EncodedLength.wrGpioDir (v : Word) : EncodedLength.Statement (.wrGpioDir v) := fun _ => rfl
theorem EncodedLength.rdGpioOut : EncodedLength.Statement (.rdGpioOut) := fun _ => rfl
theorem EncodedLength.wrGpioOut (v : Word) : EncodedLength.Statement (.wrGpioOut v) := fun _ => rfl
theorem EncodedLength.rdGpioIn : EncodedLength.Statement (.rdGpioIn) := fun _ => rfl
theorem EncodedLength.rdGpioIntEn : EncodedLength.Statement (.rdGpioIntEn) := fun _ => rfl
theorem EncodedLength.wrGpioIntEn (v : Word) : EncodedLength.Statement (.wrGpioIntEn v) := fun _ => rfl
theorem EncodedLength.rdGpioIntPend : EncodedLength.Statement (.rdGpioIntPend) := fun _ => rfl
theorem EncodedLength.rdGpioIntClr : EncodedLength.Statement (.rdGpioIntClr) := fun _ => rfl
theorem EncodedLength.wrGpioIntClr (v : Word) : EncodedLength.Statement (.wrGpioIntClr v) := fun _ => rfl
theorem EncodedLength.rdTimerMtimeLo : EncodedLength.Statement (.rdTimerMtimeLo) := fun _ => rfl
theorem EncodedLength.wrTimerMtimeLo (v : Word) : EncodedLength.Statement (.wrTimerMtimeLo v) := fun _ => rfl
theorem EncodedLength.rdTimerMtimeHi : EncodedLength.Statement (.rdTimerMtimeHi) := fun _ => rfl
theorem EncodedLength.wrTimerMtimeHi (v : Word) : EncodedLength.Statement (.wrTimerMtimeHi v) := fun _ => rfl
theorem EncodedLength.rdTimerMtimecmpLo : EncodedLength.Statement (.rdTimerMtimecmpLo) := fun _ => rfl
theorem EncodedLength.wrTimerMtimecmpLo (v : Word) : EncodedLength.Statement (.wrTimerMtimecmpLo v) := fun _ => rfl
theorem EncodedLength.rdTimerMtimecmpHi : EncodedLength.Statement (.rdTimerMtimecmpHi) := fun _ => rfl
theorem EncodedLength.wrTimerMtimecmpHi (v : Word) : EncodedLength.Statement (.wrTimerMtimecmpHi v) := fun _ => rfl
theorem EncodedLength.rdPwm0Ctrl : EncodedLength.Statement (.rdPwm0Ctrl) := fun _ => rfl
theorem EncodedLength.wrPwm0Ctrl (v : Word) : EncodedLength.Statement (.wrPwm0Ctrl v) := fun _ => rfl
theorem EncodedLength.rdPwm0Period : EncodedLength.Statement (.rdPwm0Period) := fun _ => rfl
theorem EncodedLength.wrPwm0Period (v : Word) : EncodedLength.Statement (.wrPwm0Period v) := fun _ => rfl
theorem EncodedLength.rdPwm0Duty : EncodedLength.Statement (.rdPwm0Duty) := fun _ => rfl
theorem EncodedLength.wrPwm0Duty (v : Word) : EncodedLength.Statement (.wrPwm0Duty v) := fun _ => rfl
theorem EncodedLength.rdPwm0Counter : EncodedLength.Statement (.rdPwm0Counter) := fun _ => rfl
theorem EncodedLength.rdPwm1Ctrl : EncodedLength.Statement (.rdPwm1Ctrl) := fun _ => rfl
theorem EncodedLength.wrPwm1Ctrl (v : Word) : EncodedLength.Statement (.wrPwm1Ctrl v) := fun _ => rfl
theorem EncodedLength.rdPwm1Period : EncodedLength.Statement (.rdPwm1Period) := fun _ => rfl
theorem EncodedLength.wrPwm1Period (v : Word) : EncodedLength.Statement (.wrPwm1Period v) := fun _ => rfl
theorem EncodedLength.rdPwm1Duty : EncodedLength.Statement (.rdPwm1Duty) := fun _ => rfl
theorem EncodedLength.wrPwm1Duty (v : Word) : EncodedLength.Statement (.wrPwm1Duty v) := fun _ => rfl
theorem EncodedLength.rdPwm1Counter : EncodedLength.Statement (.rdPwm1Counter) := fun _ => rfl
theorem EncodedLength.rdI2cCtrl : EncodedLength.Statement (.rdI2cCtrl) := fun _ => rfl
theorem EncodedLength.wrI2cCtrl (v : Word) : EncodedLength.Statement (.wrI2cCtrl v) := fun _ => rfl
theorem EncodedLength.rdI2cStatus : EncodedLength.Statement (.rdI2cStatus) := fun _ => rfl
theorem EncodedLength.rdI2cData : EncodedLength.Statement (.rdI2cData) := fun _ => rfl
theorem EncodedLength.wrI2cData (v : Word) : EncodedLength.Statement (.wrI2cData v) := fun _ => rfl
theorem EncodedLength.rdI2cPrescale : EncodedLength.Statement (.rdI2cPrescale) := fun _ => rfl
theorem EncodedLength.wrI2cPrescale (v : Word) : EncodedLength.Statement (.wrI2cPrescale v) := fun _ => rfl
theorem EncodedLength.rdSpiCtrl : EncodedLength.Statement (.rdSpiCtrl) := fun _ => rfl
theorem EncodedLength.wrSpiCtrl (v : Word) : EncodedLength.Statement (.wrSpiCtrl v) := fun _ => rfl
theorem EncodedLength.rdSpiStatus : EncodedLength.Statement (.rdSpiStatus) := fun _ => rfl
theorem EncodedLength.rdSpiTxdata : EncodedLength.Statement (.rdSpiTxdata) := fun _ => rfl
theorem EncodedLength.wrSpiTxdata (v : Word) : EncodedLength.Statement (.wrSpiTxdata v) := fun _ => rfl
theorem EncodedLength.rdSpiRxdata : EncodedLength.Statement (.rdSpiRxdata) := fun _ => rfl
theorem EncodedLength.rdSpiConfig : EncodedLength.Statement (.rdSpiConfig) := fun _ => rfl
theorem EncodedLength.wrSpiConfig (v : Word) : EncodedLength.Statement (.wrSpiConfig v) := fun _ => rfl
theorem EncodedLength.spiStart8 : EncodedLength.Statement (.spiStart8) := fun _ => rfl
theorem EncodedLength.spiStart16 : EncodedLength.Statement (.spiStart16) := fun _ => rfl
theorem EncodedLength.spiStart32 : EncodedLength.Statement (.spiStart32) := fun _ => rfl
theorem EncodedLength.i2cStart : EncodedLength.Statement (.i2cStart) := fun _ => rfl
theorem EncodedLength.i2cRestart : EncodedLength.Statement (.i2cRestart) := fun _ => rfl
theorem EncodedLength.i2cWrite : EncodedLength.Statement (.i2cWrite) := fun _ => rfl
theorem EncodedLength.i2cReadAck : EncodedLength.Statement (.i2cReadAck) := fun _ => rfl
theorem EncodedLength.i2cReadNack : EncodedLength.Statement (.i2cReadNack) := fun _ => rfl
theorem EncodedLength.i2cStop : EncodedLength.Statement (.i2cStop) := fun _ => rfl
theorem EncodedLength.gpioSetDir (pin : Word) (dir : Word) : EncodedLength.Statement (.gpioSetDir pin dir) := fun _ => rfl
theorem EncodedLength.gpioGetDir (pin : Word) : EncodedLength.Statement (.gpioGetDir pin) := fun _ => rfl
theorem EncodedLength.gpioSetDirMask (mask : Word) : EncodedLength.Statement (.gpioSetDirMask mask) := fun _ => rfl
theorem EncodedLength.gpioGetDirMask : EncodedLength.Statement (.gpioGetDirMask) := fun _ => rfl
theorem EncodedLength.gpioSetPin (pin : Word) : EncodedLength.Statement (.gpioSetPin pin) := fun _ => rfl
theorem EncodedLength.gpioClearPin (pin : Word) : EncodedLength.Statement (.gpioClearPin pin) := fun _ => rfl
theorem EncodedLength.gpioTogglePin (pin : Word) : EncodedLength.Statement (.gpioTogglePin pin) := fun _ => rfl
theorem EncodedLength.gpioWritePin (pin : Word) (level : Word) : EncodedLength.Statement (.gpioWritePin pin level) := fun _ => rfl
theorem EncodedLength.gpioWrite (mask : Word) : EncodedLength.Statement (.gpioWrite mask) := fun _ => rfl
theorem EncodedLength.gpioReadPin (pin : Word) : EncodedLength.Statement (.gpioReadPin pin) := fun _ => rfl
theorem EncodedLength.gpioRead : EncodedLength.Statement (.gpioRead) := fun _ => rfl
theorem EncodedLength.gpioIntEnable (pin : Word) : EncodedLength.Statement (.gpioIntEnable pin) := fun _ => rfl
theorem EncodedLength.gpioIntDisable (pin : Word) : EncodedLength.Statement (.gpioIntDisable pin) := fun _ => rfl
theorem EncodedLength.gpioIntPending : EncodedLength.Statement (.gpioIntPending) := fun _ => rfl
theorem EncodedLength.gpioIntClear (pin : Word) : EncodedLength.Statement (.gpioIntClear pin) := fun _ => rfl
theorem EncodedLength.gpioSetAll : EncodedLength.Statement (.gpioSetAll) := fun _ => rfl
theorem EncodedLength.gpioClearAll : EncodedLength.Statement (.gpioClearAll) := fun _ => rfl
theorem EncodedLength.gpioToggleAll : EncodedLength.Statement (.gpioToggleAll) := fun _ => rfl
theorem EncodedLength.irqInit (entry : Word) : EncodedLength.Statement (.irqInit entry) := fun _ => rfl
theorem EncodedLength.irqRegister (n : Word) (handler : Word) : EncodedLength.Statement (.irqRegister n handler) := fun _ => rfl
theorem EncodedLength.irqDispatch (cause : Word) : EncodedLength.Statement (.irqDispatch cause) := fun _ => rfl
theorem EncodedLength.irqGlobalEnable : EncodedLength.Statement (.irqGlobalEnable) := fun _ => rfl
theorem EncodedLength.irqGlobalDisable : EncodedLength.Statement (.irqGlobalDisable) := fun _ => rfl
theorem EncodedLength.irqEnableTimer : EncodedLength.Statement (.irqEnableTimer) := fun _ => rfl
theorem EncodedLength.irqEnableExternal : EncodedLength.Statement (.irqEnableExternal) := fun _ => rfl
theorem EncodedLength.irqDisableTimer : EncodedLength.Statement (.irqDisableTimer) := fun _ => rfl
theorem EncodedLength.irqDisableExternal : EncodedLength.Statement (.irqDisableExternal) := fun _ => rfl
theorem EncodedLength.spiXfer8 (tx : Word) : EncodedLength.Statement (.spiXfer8 tx) := fun _ => rfl
theorem EncodedLength.spiXfer16 (tx : Word) : EncodedLength.Statement (.spiXfer16 tx) := fun _ => rfl
theorem EncodedLength.spiXfer32 (tx : Word) : EncodedLength.Statement (.spiXfer32 tx) := fun _ => rfl
theorem EncodedLength.spiXfern8 (txbuf : Option Word) (rxbuf : Option Word) (count : Word) : EncodedLength.Statement (.spiXfern8 txbuf rxbuf count) := fun _ => rfl
theorem EncodedLength.spiXfern16 (txbuf : Option Word) (rxbuf : Option Word) (count : Word) : EncodedLength.Statement (.spiXfern16 txbuf rxbuf count) := fun _ => rfl
theorem EncodedLength.spiXfern32 (txbuf : Option Word) (rxbuf : Option Word) (count : Word) : EncodedLength.Statement (.spiXfern32 txbuf rxbuf count) := fun _ => rfl
theorem EncodedLength.spiBurst (buf : Word) (len : Word) : EncodedLength.Statement (.spiBurst buf len) := fun _ => rfl
theorem EncodedLength.spiSetDiv (div : Word) : EncodedLength.Statement (.spiSetDiv div) := fun _ => rfl
theorem EncodedLength.spiSetMode (mode : Word) : EncodedLength.Statement (.spiSetMode mode) := fun _ => rfl
theorem EncodedLength.i2cWriteN (addr7 : Word) (buf : Word) (n : Word) : EncodedLength.Statement (.i2cWriteN addr7 buf n) := fun _ => rfl
theorem EncodedLength.i2cReadN (addr7 : Word) (buf : Word) (n : Word) (nackLast : Word) : EncodedLength.Statement (.i2cReadN addr7 buf n nackLast) := fun _ => rfl
theorem EncodedLength.i2cRtwb (addr7 : Word) : EncodedLength.Statement (.i2cRtwb addr7) := fun _ => rfl
theorem EncodedLength.i2cRtwbRs (addr7 : Word) : EncodedLength.Statement (.i2cRtwbRs addr7) := fun _ => rfl
theorem EncodedLength.i2cSetPrescale (div : Word) : EncodedLength.Statement (.i2cSetPrescale div) := fun _ => rfl
theorem EncodedLength.pwmInit (ch : Word) : EncodedLength.Statement (.pwmInit ch) := fun _ => rfl
theorem EncodedLength.pwmSetPeriod (ch : Word) (period : Word) : EncodedLength.Statement (.pwmSetPeriod ch period) := fun _ => rfl
theorem EncodedLength.pwmSetDuty (ch : Word) (duty : Word) : EncodedLength.Statement (.pwmSetDuty ch duty) := fun _ => rfl
theorem EncodedLength.pwmEnable (ch : Word) : EncodedLength.Statement (.pwmEnable ch) := fun _ => rfl
theorem EncodedLength.pwmDisable (ch : Word) : EncodedLength.Statement (.pwmDisable ch) := fun _ => rfl
theorem EncodedLength.pwmStart (ch : Word) (period : Word) (duty : Word) : EncodedLength.Statement (.pwmStart ch period duty) := fun _ => rfl
theorem EncodedLength.pwmReadCounter (ch : Word) : EncodedLength.Statement (.pwmReadCounter ch) := fun _ => rfl

end Sys2Proof.Laws
end

