-- ==== Sys2Proof/Laws/Steps.lean ====
section
/-! SUPPORT. What one step of the machine can do, said once: every later claim over steps is a case analysis of `Stepped`. -/

namespace Sys2Proof.Machine

/-- What a step does with what the machine does next. -/
def act (x : Turn) (s : State) : Result :=
  match x with
  | .faulted f => .fault f
  | .refused r => .refused r
  | .device m => .next (deviceMove m s)
  | .trap cause => takeTrap cause s
  | .instr i => exec i s
  | .poll r bit want => execPoll r bit want s
  | .rmw r c b => execRmw r c b s
  | .rejected r => .refused r
  | .stubEntry => stubEntry s
  | .trapReturn => trapReturn s
  | .handlerEnd => handlerEnd s
  | .idle => .next s

theorem step_act (s : State) : step s = act (turn s) s.moved := rfl

/-- With no mark standing the machine moves the host or another agent. -/
theorem turn_cases (s : State) :
    (∃ f, turn s = .faulted f) ∨ (∃ r, turn s = .refused r) ∨
      (s.faulted = none ∧ s.refused = none ∧ (turn s = hostTurn s ∨ turn s = .device (nextMove s))) := by
  unfold turn
  split
  · exact .inl ⟨_, rfl⟩
  · exact .inr (.inl ⟨_, rfl⟩)
  · refine .inr (.inr ⟨‹_›, ‹_›, ?_⟩)
    split
    · exact .inl rfl
    · exact .inr rfl

/-- Everything a step that goes on can do, from the state whose move has been taken off the agenda. -/
inductive Stepped (s : State) : State → Prop
  | idle : Stepped s s
  | device (m : Move) : Stepped s (deviceMove m s)
  | trap {t : State} (cause : Word) : takeTrap cause s = .next t → Stepped s t
  | effect {t : State} (W : Reg → Word → Prop) : Effect W s t → Stepped s t
  | call (n : Nat) (h : Word) : Stepped s (callHandler n h s)
  | stubEntry : (∃ e, s.cur.kind = .stub e) → s.cur.phase = .stubEntry → Stepped s { (csrRead .mcause s).2 with
      cur := { s.cur with
        prog := [.stmt .op (opBytes 0x32#8 (csrRead .mcause s).1 0#32 0#32 0#32)], phase := .idle, loc := Locals.none } }
  | trapReturn {t : State} : (∃ e, s.cur.kind = .stub e) → Machine.trapReturn s = .next t → Stepped s t
  | handlerEnd {t : State} : (∃ n h, s.cur.kind = .handler n h) → Machine.handlerEnd s = .next t → Stepped s t

theorem act_empty {s t : State} (h : act (emptyTurn s.cur) s = .next t) : Stepped s t := by
  unfold emptyTurn at h
  cases hk : s.cur.kind with
  | main => rw [hk] at h; cases h; exact .idle
  | stub e =>
    rw [hk] at h; dsimp only at h
    by_cases hp : s.cur.phase = .stubEntry
    · rw [if_pos hp] at h; cases h; exact .stubEntry ⟨e, hk⟩ hp
    · rw [if_neg hp] at h; exact .trapReturn ⟨e, hk⟩ h
  | handler n e => rw [hk] at h; exact .handlerEnd ⟨n, e, hk⟩ h

theorem act_instr {s t : State} {i : Instr} (h : exec i s = .next t) : Stepped s t := by
  rcases exec_effect i s with hd | ⟨c, -, -, n, hh, e⟩
  · exact .effect _ (hd t h)
  · rw [e] at h; cases h; exact .call _ _

theorem act_decode {s t : State} {e : Except DecodeError Instr} (h : act (decodeTurn e) s = .next t) : Stepped s t := by
  cases e with
  | error x => cases h
  | ok i => exact act_instr h

theorem act_request {s t : State} {p : Params} {q : Request} (h : act (requestTurn p q) s = .next t) : Stepped s t := by
  cases q with
  | stmt f b => exact act_decode h
  | bus a b c d => exact act_decode h
  | poll r bit want => exact .effect (fun _ _ => True) (Does.poll r bit want .start (fun _ _ hu => hu.finish _) t h)
  | rmw r c b =>
    replace h : execRmw r c b s = .next t := h
    unfold execRmw at h
    exact .effect (fun _ _ => True) (Does.rmw none .start (fun _ => trivial) t h)

/-- A step that goes on had no mark and did one of the things `Stepped` lists. -/
theorem step_cases {s t : State} (h : step s = .next t) : s.faulted = none ∧ s.refused = none ∧ Stepped s.moved t := by
  rw [step_act] at h
  rcases turn_cases s with ⟨f, k⟩ | ⟨f, k⟩ | ⟨k1, k2, k | k⟩
  · rw [k] at h; cases h
  · rw [k] at h; cases h
  · refine ⟨k1, k2, ?_⟩
    rw [k] at h
    unfold hostTurn at h
    split at h
    · exact .trap _ h
    · unfold contextTurn at h
      split at h
      · exact .trap _ h
      · split at h
        · exact act_request h
        · exact act_empty (s := s.moved) h
  · refine ⟨k1, k2, ?_⟩
    rw [k] at h; cases h; exact .device _

/-- When no interrupt is due and no exception raised, a host's step runs the head statement. -/
theorem step_request {s : State} {q : Request} {qs : List Request} (h1 : s.faulted = none) (h2 : s.refused = none)
    (h3 : nextMove s = .host) (hp : pendingInterrupt s = none) (hr : s.cur.raising = none) (hq : s.cur.prog = q :: qs) :
    step s = act (requestTurn s.params q) s.moved := by
  have ht : turn s = requestTurn s.params q := by
    unfold turn; rw [h1, h2]; dsimp only; rw [if_pos h3]
    unfold hostTurn contextTurn; rw [hp]; dsimp only; rw [hr]; dsimp only; rw [hq]
  rw [step_act, ht]

/-- Another agent's step. -/
theorem step_device {s : State} {m : Move} {ms : List Move} (h1 : s.faulted = none) (h2 : s.refused = none)
    (hm : s.moves = m :: ms) (hne : m ≠ .host) : step s = .next (deviceMove m { s with moves := ms }) := by
  have hn : nextMove s = m := by rw [nextMove, hm]; rfl
  have ht : turn s = .device m := by
    unfold turn; rw [h1, h2]; dsimp only; rw [if_neg (by rw [hn]; exact hne), hn]
  rw [step_act, ht, State.moved, hm]; rfl

end Sys2Proof.Machine
end

