-- ==== Sys2Proof/Laws/Runs.lean ====
section
/-! SUPPORT. Small forward lemmas: runs of one instruction, polls, command words, status bits, the table of handlers, endless runs. -/

namespace Sys2Proof.Machine

/-! ### Runs of one instruction -/

theorem play_append (i : Instr) (a b : List Move) (s : State) : play i (a ++ b) s = andThen (play i a s) (play i b) := by
  induction a generalizing s with
  | nil => rfl
  | cons m a ih =>
    cases m <;> simp only [List.cons_append, play, ih]
    cases exec i s <;> simp [ih]

theorem play_host {i : Instr} {ms : List Move} {a b : State} {r : Result} (h : exec i a = .next b)
    (k : play i ms b = r) : play i (.host :: ms) a = r := by
  rw [play, h]; exact k

theorem perform_succ (i : Instr) (k : Nat) (s : State) : perform i (k + 1) s = andThen (perform i k s) (exec i) := by
  simp only [perform]
  rw [List.replicate_succ', play_append]
  congr 1
  funext t
  simp only [play]
  cases exec i t <;> rfl

/-! ### Polls -/

theorem poll_hit {r : Reg} {bit : Nat} {want : Bool} {hit : Word → State → State} {s : State}
    (h : (readValue s s.draws.head r).getLsbD bit = want) :
    poll r bit want hit s = .next (hit (regRead r s).1 (regRead r s).2) :=
  congrArg Host.Outcome.next (if_pos h)

theorem poll_miss {r : Reg} {bit : Nat} {want : Bool} {hit : Word → State → State} {s : State}
    (h : (readValue s s.draws.head r).getLsbD bit ≠ want) : poll r bit want hit s = .next (regRead r s).2 :=
  congrArg Host.Outcome.next (if_neg h)

/-! ### Command words and status bits -/

/-- The words of 30_encoding.md R103 are legal commands. -/
theorem spiCommand_start {p : Params} (h : p.Valid) (w : SpiWidth) : spiCommand p (p.spiStart w) = some w := by
  have h1 := h.spiWords
  simp only [List.nodup_cons, List.mem_cons, List.not_mem_nil, or_false, not_or] at h1
  obtain ⟨-, ⟨h2, h3⟩, h4, -⟩ := h1
  cases w <;> simp [spiCommand, Params.spiStart, Ne.symm h2, Ne.symm h3, Ne.symm h4]

/-- The words of 30_encoding.md R107 are legal commands. -/
theorem i2cCommand_words {p : Params} (hv : p.Valid) (data : Word) :
    i2cCommand p p.i2cStart data = some (.start (data.setWidth 8)) ∧
    i2cCommand p p.i2cRestart data = some (.restart (data.setWidth 8)) ∧
    i2cCommand p p.i2cWrite data = some (.write (data.setWidth 8)) ∧
    i2cCommand p p.i2cReadAck data = some (.read true) ∧
    i2cCommand p p.i2cReadNack data = some (.read false) ∧
    i2cCommand p p.i2cStop data = some .stop := by
  have h1 := hv.i2cWords
  simp only [List.nodup_cons, List.mem_cons, List.not_mem_nil, or_false, not_or] at h1
  obtain ⟨⟨a1, a2, a3, a4, a5⟩, ⟨b1, b2, b3, b4⟩, ⟨c1, c2, c3⟩, ⟨d1, d2⟩, e1, -⟩ := h1
  simp only [i2cCommand]
  refine ⟨?_, ?_, ?_, ?_, ?_, ?_⟩ <;>
    simp [*, Ne.symm a1, Ne.symm a2, Ne.symm a3, Ne.symm a4, Ne.symm a5, Ne.symm b1, Ne.symm b2, Ne.symm b3, Ne.symm b4,
      Ne.symm c1, Ne.symm c2, Ne.symm c3, Ne.symm d1, Ne.symm d2, Ne.symm e1]

theorem spiStatus_bits {s : State} (hv : s.params.Valid) (d : Word) :
    (readValue s d .spiStatus).getLsbD s.params.spiBusyBit = s.spi.busy ∧
    (readValue s d .spiStatus).getLsbD s.params.spiDoneBit = s.spi.done := by
  have h1 := hv.spiBits
  have h2 := hv.spiBitsFit s.params.spiDoneBit (by simp)
  have h3 := hv.spiBitsFit s.params.spiBusyBit (by simp)
  simp at h1
  simp only [readValue, spiStatusWord, getLsbD_setBit]
  simp [h1, h2, h3]

theorem i2cStatus_bits {s : State} (hv : s.params.Valid) (d : Word) :
    (readValue s d .i2cStatus).getLsbD s.params.i2cBusyBit = (s.i2c.own || s.i2c.extBusy || s.i2c.cmd.isSome) ∧
    (readValue s d .i2cStatus).getLsbD s.params.i2cAckBit = s.i2c.ack ∧
    (readValue s d .i2cStatus).getLsbD s.params.i2cArbLostBit = s.i2c.arbLost ∧
    (readValue s d .i2cStatus).getLsbD s.params.i2cDoneBit = s.i2c.done ∧
    (readValue s d .i2cStatus).getLsbD s.params.i2cErrorBit = s.i2c.error := by
  have h1 := hv.i2cBits
  have h2 := hv.i2cBitsFit
  simp only [List.nodup_cons, List.mem_cons, List.not_mem_nil, or_false, not_or] at h1
  rw [List.forall_mem_cons, List.forall_mem_cons, List.forall_mem_cons, List.forall_mem_cons, List.forall_mem_cons] at h2
  obtain ⟨⟨a1, a2, a3, a4⟩, ⟨b1, b2, b3⟩, ⟨c1, c2⟩, d1, -⟩ := h1
  obtain ⟨e1, e2, e3, e4, e5, -⟩ := h2
  simp only [readValue, i2cStatusWord, getLsbD_setBit, i2cBusy]
  refine ⟨?_, ?_, ?_, ?_, ?_⟩ <;> simp [*, Ne.symm]

/-! ### Units, the table of handlers -/

theorem getLsbD_unitOf (w : SpiWidth) (v : Word) (b : Nat) (hb : b < 32) :
    (unitOf w v).getLsbD b = (decide (b < SpiWidth.bits w) && v.getLsbD b) := by
  simp only [unitOf, BitVec.getLsbD_and]
  have : (widthMask w).getLsbD b = decide (b < SpiWidth.bits w) := by
    cases w
    · have : widthMask .w8 = onesWord 8 := by decide
      rw [this, getLsbD_onesWord]; simp only [hb, decide_true, Bool.true_and]; rfl
    · have : widthMask .w16 = onesWord 16 := by decide
      rw [this, getLsbD_onesWord]; simp only [hb, decide_true, Bool.true_and]; rfl
    · have : widthMask .w32 = onesWord 32 := by decide
      rw [this, getLsbD_onesWord]; simp only [hb, decide_true, Bool.true_and]; symm; exact decide_eq_true hb
  rw [this, Bool.and_comm]

theorem handlerOf_bind (s : State) (m n : Nat) (h : Word) (hm : m < 16) : (s.bind m h).handlerOf n = if n = m then h else s.handlerOf n := by
  simp only [State.handlerOf, State.bind]
  simp only [Vector.toList_setIfInBounds]
  rw [List.getD_eq_getElem?_getD, List.getD_eq_getElem?_getD, List.getElem?_set]
  by_cases hh : m = n
  · subst hh; simp [hm]
  · rw [if_neg hh, if_neg (Ne.symm hh)]

/-! ### Endless runs -/

@[simp] theorem State.toMove_params (s : State) (m : Move) : (s.toMove m).params = s.params := rfl
@[simp] theorem State.toMove_gpio (s : State) (m : Move) : (s.toMove m).gpio = s.gpio := rfl
@[simp] theorem State.toMove_spi (s : State) (m : Move) : (s.toMove m).spi = s.spi := rfl
@[simp] theorem State.toMove_i2c (s : State) (m : Move) : (s.toMove m).i2c = s.i2c := rfl
@[simp] theorem State.toMove_disp (s : State) (m : Move) : (s.toMove m).disp = s.disp := rfl
@[simp] theorem State.toMove_csr (s : State) (m : Move) : (s.toMove m).csr = s.csr := rfl
@[simp] theorem State.toMove_trapDepth (s : State) (m : Move) : (s.toMove m).trapDepth = s.trapDepth := rfl
@[simp] theorem State.toMove_timer (s : State) (m : Move) : (s.toMove m).timer = s.timer := rfl
@[simp] theorem State.toMove_pwm0 (s : State) (m : Move) : (s.toMove m).pwm0 = s.pwm0 := rfl
@[simp] theorem State.toMove_pwm1 (s : State) (m : Move) : (s.toMove m).pwm1 = s.pwm1 := rfl
@[simp] theorem State.toMove_cur (s : State) (m : Move) : (s.toMove m).cur = s.cur := rfl
@[simp] theorem State.toMove_susp (s : State) (m : Move) : (s.toMove m).susp = s.susp := rfl
@[simp] theorem State.toMove_mem (s : State) (m : Move) : (s.toMove m).mem = s.mem := rfl
@[simp] theorem State.toMove_faulted (s : State) (m : Move) : (s.toMove m).faulted = s.faulted := rfl
@[simp] theorem State.toMove_refused (s : State) (m : Move) : (s.toMove m).refused = s.refused := rfl
@[simp] theorem State.toMove_history (s : State) (m : Move) : (s.toMove m).history = s.history := rfl
@[simp] theorem State.toMove_draws (s : State) (m : Move) : (s.toMove m).draws = s.draws := rfl
@[simp] theorem State.toMove_moves (s : State) (m : Move) : (s.toMove m).moves = [m] := rfl
@[simp] theorem nextMove_toMove (s : State) (m : Move) : nextMove (s.toMove m) = m := rfl

theorem hostMoves_succ (sched : Nat → Move) (n : Nat) :
    hostMoves sched (n + 1) = hostMoves sched n + if sched n = .host then 1 else 0 := by
  simp only [hostMoves, List.range_succ, List.countP_append, List.countP_singleton, decide_eq_true_eq]

theorem not_stopped {s : State} : ¬s.Stopped ↔ s.faulted = none ∧ s.refused = none := by simp [State.Stopped]

/-- A run that never stops is one that may. -/
theorem Runs.orStops {sched : Nat → Move} {run : Nat → State} (h : Runs sched run) : RunsOrStops sched run := fun n => by
  rw [h n]; rfl

/-- Only at the host's move does an instruction run. -/
theorem turn_instr_host {s : State} {m : Move} {i : Instr} (h : turn (s.toMove m) = .instr i) : m = .host := by
  unfold turn at h
  split at h
  · cases h
  · cases h
  · split at h
    · assumption
    · cases h

theorem BurstStep.host {sched : Nat → Move} {run : Nat → State} {ph : Phase} {depth i n : Nat}
    (h : BurstStep sched run ph depth i n) : sched n = .host :=
  let ⟨_, _, hb⟩ := h.burst
  turn_instr_host hb

/-- With interrupts off and no exception raised, the host's move runs the instruction at the head of its program. -/
theorem step_host_instr {s : State} {i : Instr} (hs : ¬s.Stopped) (hm : s.csr.mstatusMIE = false) (hr : s.cur.raising = none)
    (hq : s.cur.prog.head?.map (requestTurn s.params) = some (.instr i)) :
    turn (s.toMove .host) = .instr i ∧ step (s.toMove .host) = exec i { s with moves := [] } := by
  rw [not_stopped] at hs
  have ht : turn (s.toMove .host) = .instr i := by
    have hp : pendingInterrupt (s.toMove .host) = none := by simp [pendingInterrupt, interruptEnabled, State.toMove, hm]
    unfold turn
    rw [show (s.toMove .host).faulted = none from hs.1, show (s.toMove .host).refused = none from hs.2]
    dsimp only
    rw [if_pos (show nextMove (s.toMove .host) = .host from rfl)]
    unfold hostTurn; rw [hp]; dsimp only
    unfold contextTurn; rw [show (s.toMove .host).cur.raising = none from hr]; dsimp only
    cases hp : s.cur.prog with
    | nil => rw [hp] at hq; cases hq
    | cons q qs =>
      rw [hp] at hq
      rw [show (s.toMove .host).cur.prog = q :: qs from hp]
      exact Option.some.inj hq
  exact ⟨ht, by rw [step_act, ht]; rfl⟩

theorem spiUnits_append (a b : List Event) : spiUnits (a ++ b) = spiUnits a ++ spiUnits b := by
  simp [spiUnits, List.filterMap_append]

theorem spiUnits_nil {es : List Event} (h : ∀ e ∈ es, ∀ w t r, e ≠ .spiUnit w t r) : spiUnits es = [] := by
  simp only [spiUnits, List.filterMap_eq_nil_iff]
  intro e he
  cases e with
  | spiUnit w a b => exact absurd rfl (h _ he w a b)
  | _ => rfl

theorem spiUnits_pinEvents {x : Word} {f : Nat → Event} (h : ∀ p w t r, f p ≠ .spiUnit w t r) :
    spiUnits (pinEvents x f) = [] := by
  apply spiUnits_nil
  intro e he
  simp only [pinEvents, List.mem_map] at he
  obtain ⟨p, -, rfl⟩ := he
  exact h p

theorem spiUnits_i2cTable {p : Params} {own : Bool} {c : I2cCmd} {o : I2cOutcome} {row : I2cRow}
    (h : i2cTable p own c o = some row) : spiUnits row.events = [] := by
  unfold i2cTable at h
  split at h <;> (try split at h) <;> cases h <;> rfl

/-- Everything a move of another agent, no raised exception among them, can do to what a host operation on the SPI sees: the
engine may complete the unit in flight, with its event; nothing else. -/
structure Away (m : Move) (s t : State) : Prop where
  params : t.params = s.params
  mem : t.mem = s.mem
  csr : t.csr = s.csr
  cur : t.cur = s.cur
  susp : t.susp = s.susp
  faulted : t.faulted = s.faulted
  refused : t.refused = s.refused
  txdata : t.spi.txdata = s.spi.txdata
  config : t.spi.config = s.spi.config
  inflight : (∃ a, m = .spi a) ∧ t.spi.inflight = none ∨
    t.spi.inflight = s.spi.inflight ∧ ((∃ a, m = .spi a) → s.spi.inflight = none)
  history : ∃ es, t.history = s.history ++ es ∧ spiUnits es ++ t.spi.inflight.toList = s.spi.inflight.toList

theorem away_deviceMove (m : Move) (s : State) (h : ∀ c, m ≠ .raise c) : Away m s (deviceMove m s) := by
  cases m with
  | host => exact ⟨rfl, rfl, rfl, rfl, rfl, rfl, rfl, rfl, rfl, .inr ⟨rfl, by simp⟩, [], by simp [deviceMove], rfl⟩
  | spi a =>
    simp only [deviceMove, spiEngine]
    cases hu : s.spi.inflight with
    | none => exact ⟨rfl, rfl, rfl, rfl, rfl, rfl, rfl, rfl, rfl, .inr ⟨rfl, fun _ => hu⟩, [], by simp, by simp [hu, spiUnits]⟩
    | some u => exact ⟨rfl, rfl, rfl, rfl, rfl, rfl, rfl, rfl, rfl, .inl ⟨⟨a, rfl⟩, rfl⟩, _, rfl, by simp [hu, spiUnits]⟩
  | i2c o =>
    simp only [deviceMove, i2cEngine]
    split
    · split
      · rename_i hrow
        exact ⟨rfl, rfl, rfl, rfl, rfl, rfl, rfl, rfl, rfl, .inr ⟨rfl, by simp⟩, _, rfl, by rw [spiUnits_i2cTable hrow]; rfl⟩
      · exact ⟨rfl, rfl, rfl, rfl, rfl, rfl, rfl, rfl, rfl, .inr ⟨rfl, by simp⟩, [], by simp, rfl⟩
    · exact ⟨rfl, rfl, rfl, rfl, rfl, rfl, rfl, rfl, rfl, .inr ⟨rfl, by simp⟩, [], by simp, rfl⟩
  | detect =>
    exact ⟨rfl, rfl, rfl, rfl, rfl, rfl, rfl, rfl, rfl, .inr ⟨rfl, by simp⟩, _, rfl, by
      rw [spiUnits_pinEvents (by simp)]; rfl⟩
  | pads e =>
    exact ⟨rfl, rfl, rfl, rfl, rfl, rfl, rfl, rfl, rfl, .inr ⟨rfl, by simp⟩, _, rfl, by
      rw [show padEvents _ _ _ = pinEvents _ _ from rfl, spiUnits_pinEvents (by simp)]; rfl⟩
  | extBusy b =>
    simp only [deviceMove, extBusyChange]
    split <;> exact ⟨rfl, rfl, rfl, rfl, rfl, rfl, rfl, rfl, rfl, .inr ⟨rfl, by simp⟩, [], by simp, rfl⟩
  | timer k => exact ⟨rfl, rfl, rfl, rfl, rfl, rfl, rfl, rfl, rfl, .inr ⟨rfl, by simp⟩, [], by simp [deviceMove, timerAdvance], rfl⟩
  | raise c => exact absurd rfl (h c)

/-- The same of another agent's move in a run. -/
theorem RunsOrStops.away {sched : Nat → Move} {run : Nat → State} (h : RunsOrStops sched run) {n : Nat} (hm : sched n ≠ .host)
    (hr : ∀ c, sched n ≠ .raise c) (hs : ¬(run n).Stopped) : Away (sched n) (run n) (run (n + 1)) := by
  rw [not_stopped] at hs
  rw [h n, step_device (s := (run n).toMove (sched n)) (ms := []) hs.1 hs.2 rfl hm]
  obtain ⟨a1, a2, a3, a4, a5, a6, a7, a8, a9, a10, a11⟩ := away_deviceMove (sched n) { run n with moves := [] } hr
  exact ⟨a1, a2, a3, a4, a5, a6, a7, a8, a9, a10, a11⟩

end Sys2Proof.Machine
end

