-- ==== Sys2Proof/Tests/Slice0.lean ====
section
/-! SUPPORT. Small tests, each by evaluation. Expected results come from spec/95_test_vectors.md (V and P numbers), from the tables
of spec/30_encoding.md, or from the rule named beside the test; and for every statement with hypotheses a state that meets them. -/

namespace Sys2Proof.Machine.Test

/-! ### A machine with the default parameters of 00_scope.md R5, PIN_MAX = 7 (95_test_vectors.md), all registers zero -/

def P0 : Params :=
  { bases := { gpio := 0x10000000#32, timer := 0x10010000#32, pwm := 0x10020000#32, i2c := 0x10030000#32, spi := 0x10040000#32 }
    pinMax := 7, pendGated := false, dirOutIs1 := true, loopback := true
    spiStart8 := 1#32, spiStart16 := 3#32, spiStart32 := 5#32, spiBusyBit := 0, spiDoneBit := 1
    spiDivLsb := 0, spiDivW := 8, spiModeLsb := 8, spiModeW := 2, burstDivW2 := 2, burstDivW4 := 4
    burstFinalWait := false, spiMsbFirst := true
    i2cStart := 0x01#32, i2cStop := 0x02#32, i2cReadAck := 0x0C#32, i2cReadNack := 0x04#32, i2cRestart := 0x10#32
    i2cWrite := 0#32, i2cBusyBit := 0, i2cAckBit := 1, i2cArbLostBit := 2, i2cDoneBit := 3, i2cErrorBit := 4
    ackIs1 := true, abortWaits := false, errNack := 0xFFFFFFFE#32, errArbLost := 0xFFFFFFFD#32, errBus := 0xFFFFFFFF#32
    pwmEnBit := 0, handlers := [(0x2000#32, [.rmw .gpioOut 0#32 2#32])] }

def S0 : State :=
  { params := P0
    gpio := { dir := 0#32, out := 0#32, intEn := 0#32, intPend := 0#32, inPrev := 0#32, ext := 0#32 }
    spi := { busy := false, done := false, txdata := 0#32, rxdata := 0#32, config := 0#32, inflight := none }
    i2c :=
      { ack := false, arbLost := false, done := false, error := false, data := 0#32, prescale := 0#32, cmd := none
        own := false, extBusy := false }
    disp := { state := .armed, table := Vector.replicate 16 0#32 }
    csr :=
      { mstatusMIE := false, mstatusMPIE := false, mie := 0#32, mtvec := 0x100#32
        mepc := { depth := 0, left := 0, phase := .idle }, mcause := 0#32 }
    trapDepth := 0
    timer := { mtime := 0#64, mtimecmp := 10#64 }
    pwm0 := { ctrl := 0#32, period := 0#16, duty := 0#16 }
    pwm1 := { ctrl := 0#32, period := 0#16, duty := 0#16 }
    cur := Frame.idleMain
    susp := [], mem := [], faulted := none, refused := none, history := [], moves := []
    draws := { supply := List.replicate 8 0#32, used := 0 } }

theorem test_params_valid : P0.Valid := by
  constructor
  case errNegative => simp only [P0, List.forall_mem_cons, List.not_mem_nil, false_implies, implies_true]; decide
  all_goals first | decide | simp [P0]

/-- What `f` finds in the next state. -/
def after {α : Type} (r : Result) (f : State → α) : Option α :=
  match r with
  | .next t => some (f t)
  | _ => none

/-- The fault a result stops with. -/
def faultOf (r : Result) : Option Fault :=
  match r with
  | .fault f => some f
  | _ => none

/-- The refusal a result stops with. -/
def refusedBy (r : Result) : Option Refusal :=
  match r with
  | .refused f => some f
  | _ => none

def gpio (g : Gpio → Gpio) : State := { S0 with gpio := g S0.gpio }
def spi (x : Spi → Spi) : State := { S0 with spi := x S0.spi }
def i2c (x : I2c → I2c) : State := { S0 with i2c := x S0.i2c }
def at_ (ph : Phase) (s : State) : State := { s with cur := { s.cur with phase := ph } }

/-! ### Well-formedness: one ill-formed term for each check -/

theorem test_ill_null8 : (Instr.spiXfern8 (some 0#32) none 1#32).wellFormed = false := by decide
theorem test_ill_null16 : (Instr.spiXfern16 none (some 0#32) 1#32).wellFormed = false := by decide
theorem test_ill_null32 : (Instr.spiXfern32 (some 0#32) (some 4#32) 1#32).wellFormed = false := by decide
/-- Any value of a value operand is well-formed (notes/assumptions/26.md). -/
theorem test_well_wide :
    (Instr.gpioWritePin 0#32 2#32).wellFormed = true ∧ (Instr.spiXfer8 0x100#32).wellFormed = true ∧
    (Instr.i2cReadN 0x50#32 0x1000#32 1#32 2#32).wellFormed = true := by decide

/-! ### Decoding, words written out from 20_memory.md R71, 30_encoding.md R101, R103, R107, R122 -/

/-- The decoder on a register access: the key's low byte, its bit 8, then a data word. -/
def mmio (w : Window) (off we : Byte) (d : List Byte) : Option Instr :=
  (decodeBytes P0 (.mmio w) (off :: we :: d)).toOption

/-- The decoder on an operation: the select code, the given operand bytes, the rest zero. -/
def op (code : Byte) (operands : List Byte) : Option Instr :=
  (decodeBytes P0 .op (code :: operands ++ List.replicate (16 - operands.length) 0#8)).toOption

def zeros : List Byte := [0#8, 0#8, 0#8, 0#8]
def word : List Byte := [0x78#8, 0x56#8, 0x34#8, 0x12#8]

theorem test_decode_gpio_reads :
    [0x00#8, 0x04#8, 0x08#8, 0x0C#8, 0x10#8, 0x14#8, 0x18#8].map (mmio .gpio · 0#8 zeros) =
      [some .rdGpioDir, some .rdGpioOut, some .rdGpioIn, some .rdGpioIntEn, none, some .rdGpioIntPend, some .rdGpioIntClr] := by
  decide
theorem test_decode_gpio_writes :
    [0x00#8, 0x04#8, 0x08#8, 0x0C#8, 0x10#8, 0x14#8, 0x18#8].map (mmio .gpio · 1#8 word) =
      [some (.wrGpioDir 0x12345678#32), some (.wrGpioOut 0x12345678#32), none, some (.wrGpioIntEn 0x12345678#32), none, none,
        some (.wrGpioIntClr 0x12345678#32)] := by decide
theorem test_decode_timer_reads :
    [0x00#8, 0x04#8, 0x08#8, 0x0C#8, 0x10#8].map (mmio .timer · 0#8 zeros) =
      [some .rdTimerMtimeLo, some .rdTimerMtimeHi, some .rdTimerMtimecmpLo, some .rdTimerMtimecmpHi, none] := by decide
theorem test_decode_timer_writes :
    [0x00#8, 0x04#8, 0x08#8, 0x0C#8].map (mmio .timer · 1#8 word) =
      [some (.wrTimerMtimeLo 0x12345678#32), some (.wrTimerMtimeHi 0x12345678#32), some (.wrTimerMtimecmpLo 0x12345678#32),
        some (.wrTimerMtimecmpHi 0x12345678#32)] := by decide
theorem test_decode_pwm_reads :
    [0x00#8, 0x04#8, 0x08#8, 0x0C#8, 0x10#8, 0x14#8, 0x18#8, 0x1C#8].map (mmio .pwm · 0#8 zeros) =
      [some .rdPwm0Ctrl, some .rdPwm0Period, some .rdPwm0Duty, some .rdPwm0Counter, some .rdPwm1Ctrl, some .rdPwm1Period,
        some .rdPwm1Duty, some .rdPwm1Counter] := by decide
theorem test_decode_pwm_writes :
    [0x00#8, 0x04#8, 0x08#8, 0x0C#8, 0x10#8, 0x14#8, 0x18#8, 0x1C#8].map (mmio .pwm · 1#8 word) =
      [some (.wrPwm0Ctrl 0x12345678#32), some (.wrPwm0Period 0x12345678#32), some (.wrPwm0Duty 0x12345678#32), none,
        some (.wrPwm1Ctrl 0x12345678#32), some (.wrPwm1Period 0x12345678#32), some (.wrPwm1Duty 0x12345678#32), none] := by
  decide
theorem test_decode_i2c_reads :
    [0x00#8, 0x04#8, 0x08#8, 0x0C#8].map (mmio .i2c · 0#8 zeros) =
      [some .rdI2cCtrl, some .rdI2cStatus, some .rdI2cData, some .rdI2cPrescale] := by decide
theorem test_decode_i2c_writes :
    [0x00#8, 0x04#8, 0x08#8, 0x0C#8].map (mmio .i2c · 1#8 word) =
      [some (.wrI2cCtrl 0x12345678#32), none, some (.wrI2cData 0x12345678#32), some (.wrI2cPrescale 0x12345678#32)] := by
  decide
theorem test_decode_spi_reads :
    [0x00#8, 0x04#8, 0x08#8, 0x0C#8, 0x10#8].map (mmio .spi · 0#8 zeros) =
      [some .rdSpiCtrl, some .rdSpiStatus, some .rdSpiTxdata, some .rdSpiRxdata, some .rdSpiConfig] := by decide
theorem test_decode_spi_writes :
    [0x00#8, 0x04#8, 0x08#8, 0x0C#8, 0x10#8].map (mmio .spi · 1#8 word) =
      [some (.wrSpiCtrl 0x12345678#32), none, some (.wrSpiTxdata 0x12345678#32), none, some (.wrSpiConfig 0x12345678#32)] := by
  decide
theorem test_decode_commands :
    ([0x01#8, 0x03#8, 0x05#8, 0x07#8].map fun b => (decodeBytes P0 (.cmd .spi) [b, 0#8, 0#8, 0#8]).toOption) =
      [some .spiStart8, some .spiStart16, some .spiStart32, none] ∧
    ([0x01#8, 0x10#8, 0x00#8, 0x0C#8, 0x04#8, 0x02#8, 0x03#8, 0x08#8].map fun b =>
        (decodeBytes P0 (.cmd .i2c) [b, 0#8, 0#8, 0#8]).toOption) =
      [some .i2cStart, some .i2cRestart, some .i2cWrite, some .i2cReadAck, some .i2cReadNack, some .i2cStop, none, none] := by
  decide
theorem test_decode_gpio_pins :
    [0x11#8, 0x14#8, 0x15#8, 0x16#8, 0x19#8, 0x1B#8, 0x1C#8, 0x1E#8].map (op · [5#8]) =
      [some (.gpioGetDir 5#32), some (.gpioSetPin 5#32), some (.gpioClearPin 5#32), some (.gpioTogglePin 5#32),
        some (.gpioReadPin 5#32), some (.gpioIntEnable 5#32), some (.gpioIntDisable 5#32), some (.gpioIntClear 5#32)] := by
  decide
theorem test_decode_gpio_others :
    op 0x10#8 [5#8, 0#8, 0#8, 0#8, 1#8] = some (.gpioSetDir 5#32 1#32) ∧
    op 0x17#8 [5#8, 0#8, 0#8, 0#8, 1#8] = some (.gpioWritePin 5#32 1#32) ∧
    op 0x12#8 word = some (.gpioSetDirMask 0x12345678#32) ∧ op 0x18#8 word = some (.gpioWrite 0x12345678#32) ∧
    [0x13#8, 0x1A#8, 0x1D#8, 0x1F#8, 0x20#8, 0x21#8, 0x22#8].map (op · []) =
      [some .gpioGetDirMask, some .gpioRead, some .gpioIntPending, some .gpioSetAll, some .gpioClearAll, some .gpioToggleAll,
        none] := by decide
theorem test_decode_irq :
    op 0x30#8 [0#8, 1#8] = some (.irqInit 0x100#32) ∧
    op 0x31#8 [11#8, 0#8, 0#8, 0#8, 0#8, 0x20#8] = some (.irqRegister 11#32 0x2000#32) ∧
    op 0x32#8 [0x0B#8, 0#8, 0#8, 0x80#8] = some (.irqDispatch 0x8000000B#32) ∧
    [0x33#8, 0x34#8, 0x35#8, 0x36#8, 0x37#8, 0x38#8, 0x39#8].map (op · []) =
      [some .irqGlobalEnable, some .irqGlobalDisable, some .irqEnableTimer, some .irqEnableExternal, some .irqDisableTimer,
        some .irqDisableExternal, none] := by decide
theorem test_decode_spi_operations :
    op 0x40#8 [0x9F#8] = some (.spiXfer8 0x9F#32) ∧ op 0x40#8 [0#8, 1#8] = some (.spiXfer8 0x100#32) ∧
    op 0x41#8 [0xEF#8, 0xBE#8] = some (.spiXfer16 0xBEEF#32) ∧ op 0x42#8 word = some (.spiXfer32 0x12345678#32) ∧
    op 0x43#8 [0#8, 1#8, 0#8, 0#8, 0#8, 2#8, 0#8, 0#8, 3#8] = some (.spiXfern8 (some 0x100#32) (some 0x200#32) 3#32) ∧
    op 0x44#8 (zeros ++ [0#8, 2#8, 0#8, 0#8, 3#8]) = some (.spiXfern16 none (some 0x200#32) 3#32) ∧
    op 0x45#8 ([0#8, 1#8, 0#8, 0#8] ++ zeros ++ [3#8]) = some (.spiXfern32 (some 0x100#32) none 3#32) ∧
    op 0x46#8 [0#8, 1#8, 0#8, 0#8, 4#8] = some (.spiBurst 0x100#32 4#32) ∧
    op 0x47#8 [7#8] = some (.spiSetDiv 7#32) ∧ op 0x48#8 [3#8] = some (.spiSetMode 3#32) := by decide
theorem test_decode_i2c_operations :
    op 0x50#8 [0x50#8, 0#8, 0#8, 0#8, 0#8, 1#8, 0#8, 0#8, 2#8] = some (.i2cWriteN 0x50#32 0x100#32 2#32) ∧
    op 0x51#8 [0x50#8, 0#8, 0#8, 0#8, 0#8, 1#8, 0#8, 0#8, 2#8, 0#8, 0#8, 0#8, 1#8] =
      some (.i2cReadN 0x50#32 0x100#32 2#32 1#32) ∧
    op 0x52#8 [0x50#8] = some (.i2cRtwb 0x50#32) ∧ op 0x53#8 [0x50#8] = some (.i2cRtwbRs 0x50#32) ∧
    op 0x54#8 [159#8] = some (.i2cSetPrescale 159#32) := by decide
theorem test_decode_pwm_operations :
    [0x60#8, 0x63#8, 0x64#8, 0x66#8, 0x67#8].map (op · [1#8]) =
      [some (.pwmInit 1#32), some (.pwmEnable 1#32), some (.pwmDisable 1#32), some (.pwmReadCounter 1#32), none] ∧
    op 0x61#8 [1#8, 0#8, 0#8, 0#8, 0xE8#8, 3#8] = some (.pwmSetPeriod 1#32 1000#32) ∧
    op 0x62#8 [1#8, 0#8, 0#8, 0#8, 250#8] = some (.pwmSetDuty 1#32 250#32) ∧
    op 0x65#8 [1#8, 0#8, 0#8, 0#8, 0xE8#8, 3#8, 0#8, 0#8, 250#8] = some (.pwmStart 1#32 1000#32 250#32) := by decide
/-- 30_encoding.md R101, 20_memory.md R74: bus accesses by address and width. -/
theorem test_decode_bus :
    decodeBus P0 0x10000004#32 32 true 5#32 = .ok (.wrGpioOut 5#32) ∧
    decodeBus P0 0x10040004#32 32 false 0#32 = .ok .rdSpiStatus ∧
    decodeBus P0 0x10040008#32 8 true 0#32 = .error .badAccess ∧
    decodeBus P0 0x10040014#32 32 false 0#32 = .error .reservedOffset := by decide

/-! ### GPIO -/

/-- V1. -/
theorem test_wr_out : after (exec (.wrGpioOut 0xA5#32) S0) (·.gpio.out) = some 0xA5#32 := by decide
/-- R160: bits above PIN_MAX are dropped. -/
theorem test_wr_dir : after (exec (.wrGpioDir 0xFFFFFF0F#32) S0) (·.gpio.dir) = some 0x0F#32 := by decide
/-- V2. -/
theorem test_rd_in : after (exec .rdGpioIn (gpio ({ · with ext := 0x3C#32 }))) (·.cur.result) = some (some 0x3C#32) := by decide
/-- R161: the register, not the pads. -/
theorem test_rd_out :
    after (exec .rdGpioOut (gpio ({ · with out := 0x81#32, ext := 0x3C#32 }))) (·.cur.result) = some (some 0x81#32) := by
  decide
/-- V6. -/
theorem test_rd_int_clr :
    after (exec .rdGpioIntClr (gpio ({ · with intPend := 6#32 }))) (·.gpio.intPend) = some 6#32 := by decide
/-- V7, V8. -/
theorem test_wr_int_clr :
    after (exec (.wrGpioIntClr 4#32) (gpio ({ · with intPend := 6#32 }))) (·.gpio.intPend) = some 2#32 ∧
    after (exec (.wrGpioIntClr 0#32) (gpio ({ · with intPend := 6#32 }))) (·.gpio.intPend) = some 6#32 := by decide
/-- R163. -/
theorem test_wr_int_en : after (exec (.wrGpioIntEn 0x104#32) S0) (·.gpio.intEn) = some 4#32 := by decide
/-- V20. -/
theorem test_set_dir : after (perform (.gpioSetDir 0#32 1#32) 2 S0) (fun t => (t.gpio.dir, t.cur.result)) =
    some (1#32, some 0#32) := by decide
/-- V21. -/
theorem test_set_dir_input :
    after (perform (.gpioSetDir 7#32 0#32) 2 (gpio ({ · with dir := 0xFF#32 }))) (·.gpio.dir) = some 0x7F#32 := by decide
/-- notes/assumptions/26.md: an operand that is no bit counts as a free one; the draw of this state is 0. -/
theorem test_wide_level :
    after (perform (.gpioWritePin 7#32 2#32) 2 (gpio ({ · with out := 0x80#32 }))) (fun t => (t.gpio.out, t.cur.result)) =
      some (0#32, some 0#32) ∧
    after (perform (.gpioSetDir 0#32 3#32) 2 { S0 with draws := { supply := [0#32, 3#32], used := 0 } }) (·.gpio.dir) =
      some 1#32 := by decide
/-- V22. -/
theorem test_get_dir :
    after (exec (.gpioGetDir 3#32) (gpio ({ · with dir := 8#32 }))) (·.cur.result) = some (some 1#32) ∧
    after (exec (.gpioGetDir 2#32) (gpio ({ · with dir := 8#32 }))) (·.cur.result) = some (some 0#32) := by decide
/-- V23. -/
theorem test_pin_range :
    after (exec (.gpioSetDir 8#32 1#32) S0) (fun t => (t.cur.result, t.history)) = some (some 0xFFFFFFFF#32, []) ∧
    after (exec (.gpioSetDir 0xFFFFFFFF#32 1#32) S0) (·.cur.result) = some (some 0xFFFFFFFF#32) := by decide
/-- R173. -/
theorem test_set_dir_mask : after (exec (.gpioSetDirMask 0xFFFFFF0F#32) S0) (·.gpio.dir) = some 0x0F#32 := by decide
/-- V24. -/
theorem test_set_pin : after (perform (.gpioSetPin 2#32) 2 (gpio ({ · with out := 1#32 }))) (·.gpio.out) = some 5#32 := by
  decide
/-- V26. -/
theorem test_clear_pin : after (perform (.gpioClearPin 2#32) 2 (gpio ({ · with out := 5#32 }))) (·.gpio.out) = some 1#32 := by
  decide
/-- V27. -/
theorem test_toggle_pin : after (perform (.gpioTogglePin 0#32) 2 (gpio ({ · with out := 5#32 }))) (·.gpio.out) = some 4#32 := by
  decide
/-- V28. -/
theorem test_write_pin :
    after (perform (.gpioWritePin 7#32 1#32) 2 S0) (·.gpio.out) = some 0x80#32 ∧
    after (perform (.gpioWritePin 7#32 0#32) 2 (gpio ({ · with out := 0x80#32 }))) (·.gpio.out) = some 0#32 := by decide
/-- V29. -/
theorem test_toggle_all : after (perform .gpioToggleAll 2 (gpio ({ · with out := 0xA5#32 }))) (·.gpio.out) = some 0x5A#32 := by
  decide
/-- V30. -/
theorem test_set_clear_all :
    after (exec .gpioSetAll S0) (·.gpio.out) = some 0xFF#32 ∧
    after (exec .gpioClearAll (gpio ({ · with out := 0xFF#32 }))) (·.gpio.out) = some 0#32 := by decide
/-- V31, V32, V33. -/
theorem test_read_pin :
    after (exec (.gpioReadPin 3#32) (gpio ({ · with ext := 8#32 }))) (·.cur.result) = some (some 1#32) ∧
    after (exec (.gpioReadPin 2#32) (gpio ({ · with ext := 8#32 }))) (·.cur.result) = some (some 0#32) ∧
    after (exec (.gpioReadPin 2#32) (gpio ({ · with dir := 4#32, ext := 0xFF#32 }))) (·.cur.result) = some (some 0#32) ∧
    after (exec (.gpioReadPin 2#32) (gpio ({ · with out := 4#32 }))) (·.cur.result) = some (some 0#32) := by decide
/-- V34. -/
theorem test_int_enable : after (perform (.gpioIntEnable 2#32) 2 S0) (·.gpio.intEn) = some 4#32 := by decide
/-- V35. -/
theorem test_int_disable :
    after (perform (.gpioIntDisable 2#32) 2 (gpio ({ · with intEn := 6#32 }))) (·.gpio.intEn) = some 2#32 := by decide
/-- V36. -/
theorem test_int_clear :
    after (exec (.gpioIntClear 1#32) (gpio ({ · with intPend := 6#32 }))) (·.gpio.intPend) = some 4#32 := by decide
/-- V37. -/
theorem test_int_pending :
    after (exec .gpioIntPending (gpio ({ · with intPend := 6#32 }))) (fun t => (t.cur.result, t.gpio.intPend)) =
      some (some 6#32, 6#32) := by decide
/-- V38: the detector step. -/
theorem test_edge :
    after (step { gpio ({ · with intEn := 4#32, ext := 4#32 }) with moves := [.detect] })
      (fun t => (t.gpio.intPend, gpioIrq t, t.history)) = some (4#32, true, [.edge 2]) := by decide
/-- V40, V41. -/
theorem test_no_edge :
    after (step { gpio ({ · with inPrev := 4#32, ext := 4#32 }) with moves := [.detect] }) (·.gpio.intPend) = some 0#32 ∧
    after (step { gpio ({ · with inPrev := 4#32 }) with moves := [.detect] }) (·.gpio.intPend) = some 0#32 := by decide

/-! ### Dispatcher and traps -/

/-- V50, the last micro-step. -/
theorem test_init :
    after (exec (.irqInit 0x100#32) (at_ .irqVector { S0 with disp := { S0.disp with state := .uninitialized } }))
      (fun t => (t.disp.state, t.csr.mtvec)) = some (.armed, 0x100#32) := by decide
/-- V51. -/
theorem test_register : after (exec (.irqRegister 15#32 0x2000#32) S0) (fun t => (t.handlerOf 15, t.cur.result)) =
    some (0x2000#32, some 0#32) := by decide
/-- V52. -/
theorem test_register_range :
    after (exec (.irqRegister 16#32 0x2000#32) S0) (fun t => (t.disp.table, t.cur.result)) =
      some (S0.disp.table, some 0xFFFFFFFF#32) := by decide
/-- V54, V55. -/
theorem test_before_init :
    refusedBy (exec (.irqRegister 7#32 0x3000#32) { S0 with disp := { S0.disp with state := .uninitialized } }) =
      some .useBeforeInit ∧
    faultOf (exec (.irqDispatch 0x80000007#32) { S0 with disp := { S0.disp with state := .uninitialized } }) =
      some (.trapUninitialized 0x80000007#32) := by decide
/-- V56: the call. -/
theorem test_dispatch :
    after (exec (.irqDispatch 0x80000007#32) (S0.bind 7 0x2000#32)) (fun t => (t.history, t.cur.kind, t.cur.prog.length)) =
      some ([.handlerCall 7 0x2000#32], .handler 7 0x2000#32, 1) := by decide
/-- V57, V58, V59. -/
theorem test_dispatch_ignores :
    ([0x00000007#32, 0x8000000B#32, 0x80000010#32, 0xFFFFFFFF#32].map fun c =>
        after (exec (.irqDispatch c) (S0.bind 7 0x2000#32)) (·.history)) = List.replicate 4 (some []) := by decide
/-- V60. -/
theorem test_enables :
    after (perform .irqEnableTimer 3 S0) (·.csr.mie) = some 0x80#32 ∧
    after (perform .irqEnableExternal 3 { S0 with csr := { S0.csr with mie := 0x80#32 } }) (·.csr.mie) = some 0x880#32 := by
  decide
/-- V61, and the external source (R209). -/
theorem test_disables :
    after (perform .irqDisableTimer 2 { S0 with csr := { S0.csr with mie := 0x880#32 } }) (·.csr.mie) = some 0x800#32 ∧
    after (perform .irqDisableExternal 2 { S0 with csr := { S0.csr with mie := 0x880#32 } }) (·.csr.mie) = some 0x80#32 := by
  decide
/-- V62. -/
theorem test_global :
    after (perform .irqGlobalEnable 3 S0) (·.csr.mstatusMIE) = some true ∧
    after (perform .irqGlobalDisable 2 { S0 with csr := { S0.csr with mstatusMIE := true } }) (·.csr.mstatusMIE) =
      some false := by decide

/-- Both interrupts enabled and pending. -/
def both : State :=
  { gpio ({ · with intEn := 4#32, intPend := 4#32 }) with
    csr := { S0.csr with mstatusMIE := true, mie := 0x880#32 }, timer := { mtime := 10#64, mtimecmp := 10#64 } }

/-- V63. -/
theorem test_trap :
    after (step both) (fun t => (t.csr.mcause, t.csr.mstatusMPIE, t.csr.mstatusMIE, t.trapDepth, t.history)) =
      some (0x8000000B#32, true, false, 1, [.trapTaken 0x8000000B#32]) := by decide
/-- V64: the trap return, with the entry stub done. -/
theorem test_trap_return :
    after (step { both with
        csr := { both.csr with mstatusMIE := false, mstatusMPIE := true }
        trapDepth := 1, susp := [Frame.idleMain], cur := { stubFrame 0x100#32 with phase := .idle } })
      (fun t => (t.csr.mstatusMIE, t.trapDepth, t.cur.kind)) = some (true, 0, .main) := by decide
/-- V67. -/
theorem test_nested_trap : refusedBy (step { both with trapDepth := 1 }) = some .nestedTrap := by decide

/-! ### SPI -/

/-- V74, and R242, R243. -/
theorem test_start :
    after (exec (.wrSpiCtrl 1#32) (spi ({ · with done := true, txdata := 0x1A5#32 }))) (·.spi.inflight) =
      some (some { width := .w8, value := 0xA5#32 }) ∧
    after (exec .spiStart8 (spi ({ · with done := true }))) (fun t => (t.spi.done, t.spi.busy)) = some (false, true) ∧
    after (exec .spiStart16 (spi ({ · with txdata := 0x1BEEF#32 }))) (·.spi.inflight) =
      some (some { width := .w16, value := 0xBEEF#32 }) ∧
    after (exec .spiStart32 (spi ({ · with txdata := 0x1BEEF#32 }))) (·.spi.inflight) =
      some (some { width := .w32, value := 0x1BEEF#32 }) := by decide
/-- V9, V10. -/
theorem test_illegal_spi_command :
    refusedBy (exec (.wrSpiCtrl 7#32) S0) = some .illegalCommand ∧
    refusedBy (exec (.wrSpiCtrl 0#32) S0) = some .illegalCommand := by decide
/-- V75. -/
theorem test_overrun :
    faultOf (exec (.wrSpiTxdata 0x12#32) (spi ({ · with busy := true, inflight := some ⟨.w8, 1#32⟩ }))) =
      some (.spiOverrun .spiTxdata) := by decide
/-- R236. -/
theorem test_spi_engine :
    after (step { spi ({ · with busy := true, inflight := some ⟨.w8, 0xA5#32⟩ }) with moves := [.spi 0x13C#32] })
      (fun t => (t.spi, t.history)) =
      some ({ S0.spi with rxdata := 0x3C#32, done := true }, [.spiUnit .w8 0xA5#32 0x3C#32]) := by decide
/-- R233: DONE is bit 1. -/
theorem test_rd_spi_status :
    after (exec .rdSpiStatus (spi ({ · with done := true }))) (·.cur.result) = some (some 2#32) := by decide
/-- V71: TXDATA, then the CTRL word. -/
theorem test_xfer8 :
    after (perform (.spiXfer8 0xA5#32) 2 S0) (·.history) = some [.regWr .spiTxdata 0xA5#32, .regWr .spiCtrl 1#32] := by decide
/-- notes/assumptions/26.md: an operand wider than the unit counts as a free unit, here the low bits of the draw. -/
theorem test_xfer8_wide :
    after (perform (.spiXfer8 0x100#32) 2 { S0 with draws := { supply := [0x1A5#32], used := 0 } }) (·.spi.inflight) =
      some (some { width := .w8, value := 0xA5#32 }) := by decide
/-- V71: the return. -/
theorem test_xfer8_returns :
    after (exec (.spiXfer8 0xA5#32) (at_ .spiRx (spi ({ · with rxdata := 0x3C#32 })))) (·.cur.result) =
      some (some 0x3C#32) := by decide
/-- V72. -/
theorem test_xfer16 :
    after (perform (.spiXfer16 0xBEEF#32) 2 S0) (·.history) =
      some [.regWr .spiTxdata 0xBEEF#32, .regWr .spiCtrl 3#32] := by decide
/-- V73. -/
theorem test_xfer32 :
    after (perform (.spiXfer32 0xFFFFFFFF#32) 2 S0) (·.history) =
      some [.regWr .spiTxdata 0xFFFFFFFF#32, .regWr .spiCtrl 5#32] := by decide
/-- V77. -/
theorem test_xfern_empty :
    after (exec (.spiXfern8 (some 0x100#32) (some 0x200#32) 0#32) S0) (fun t => (t.cur.result, t.history)) =
      some (some 0xFFFFFFFF#32, []) ∧
    after (exec (.spiXfern8 (some 0x100#32) none 0xFFFFFFFF#32) S0) (·.cur.result) = some (some 0xFFFFFFFF#32) := by decide
/-- V78: the fill value; V76: the unit stored. -/
theorem test_xfern8 :
    after (exec (.spiXfern8 none (some 0x200#32) 2#32) S0) (·.history) = some [.regWr .spiTxdata 0xFF#32] ∧
    after (exec (.spiXfern8 none (some 0x200#32) 1#32)
        { at_ .spiStore S0 with cur := { S0.cur with phase := .spiStore, loc := { Locals.none with unit := 3#32 } } })
      (fun t => (t.mem, t.cur.result)) = some ([(0x200, 3#8)], some 0#32) := by decide
/-- V79, V81. -/
theorem test_xfern16 :
    after (exec (.spiXfern16 none none 2#32) S0) (·.history) = some [.regWr .spiTxdata 0xFFFF#32] ∧
    refusedBy (exec (.spiXfern16 (some 0x1001#32) none 1#32) S0) = some .misalignedBuffer := by decide
/-- V80. -/
theorem test_xfern32 :
    after (exec (.spiXfern32 (some 0x100#32) (some 0x200#32) 1#32)
      { S0 with mem := [(0x100, 0x78#8), (0x101, 0x56#8), (0x102, 0x34#8), (0x103, 0x12#8)] }) (·.cur.loc.unit) =
      some 0x12345678#32 := by decide

/-- A burst that has read CONFIG. -/
def burst (config : Word) : State :=
  { S0 with
    mem := [(0x100, 0x11#8), (0x101, 0x22#8)]
    cur := { S0.cur with phase := .burstUnit, loc := { Locals.none with v := config } } }

/-- V82. -/
theorem test_burst :
    after (perform (.spiBurst 0x100#32 4#32) 3 (burst 2#32)) (·.history) =
      some [.regWr .spiTxdata 0x2211#32, .regWr .spiCtrl 3#32] := by decide
/-- V83, V84, V85, V86. -/
theorem test_burst_checks :
    ([(3#32, 2#32), (6#32, 4#32), (4#32, 31#32), (0#32, 2#32)].map fun x =>
        after (exec (.spiBurst 0x100#32 x.1) (burst x.2)) (·.cur.result)) =
      [some (some 0xFFFFFFFF#32), some (some 0xFFFFFFFF#32), some (some 0xFFFFFFFF#32), some (some 0#32)] := by decide
/-- V88, V89. -/
theorem test_set_div :
    after (perform (.spiSetDiv 7#32) 2 (spi ({ · with config := 0x11F#32 }))) (·.spi.config) = some 0x107#32 ∧
    after (perform (.spiSetDiv 0x1FF#32) 2 (spi ({ · with config := 0x1F#32 }))) (·.spi.config) = some 0xFF#32 := by decide
/-- V88. -/
theorem test_set_mode :
    after (perform (.spiSetMode 0#32) 2 (spi ({ · with config := 0x107#32 }))) (·.spi.config) = some 7#32 := by decide

/-! ### I2C -/

/-- V100, V101. -/
theorem test_classify :
    ([(0x0B#32, true), (0x09#32, true), (0x09#32, false), (0x0D#32, true), (0x19#32, true), (0x1C#32, true)].map fun x =>
        classify P0 x.1 x.2) = [0#32, 0xFFFFFFFE#32, 0#32, 0xFFFFFFFD#32, 0xFFFFFFFF#32, 0xFFFFFFFF#32] := by decide
/-- V102. -/
theorem test_address_byte : addressByte 0x50#32 true = 0xA1#32 ∧ addressByte 0x50#32 false = 0xA0#32 := by decide
/-- V11, V12. -/
theorem test_illegal_i2c_command :
    refusedBy (exec (.wrI2cCtrl 3#32) S0) = some .illegalCommand ∧
    refusedBy (exec (.wrI2cCtrl 8#32) S0) = some .illegalCommand := by decide
/-- V13. -/
theorem test_illegal_phase : refusedBy (exec (.wrI2cCtrl 0#32) S0) = some .illegalPhase := by decide
/-- R282 to R287: each command word and the phase it starts. -/
theorem test_i2c_commands :
    after (exec .i2cStart (i2c ({ · with data := 0xA1#32 }))) (·.i2c.cmd) = some (some (.start 0xA1#8)) ∧
    ([Instr.i2cRestart, .i2cWrite, .i2cReadAck, .i2cReadNack, .i2cStop].map fun i =>
        after (exec i (i2c ({ · with data := 0x5A#32, own := true }))) (·.i2c.cmd)) =
      [some (some (.restart 0x5A#8)), some (some (.write 0x5A#8)), some (some (.read true)), some (some (.read false)),
        some (some .stop)] := by decide
/-- V112. -/
theorem test_i2c_overrun :
    faultOf (exec (.wrI2cCtrl 2#32) (i2c ({ · with cmd := some .stop }))) = some (.i2cOverrun .i2cCtrl) := by decide
/-- R290: START acknowledged; R288: the word then read is 0x0B. -/
theorem test_i2c_engine :
    after (step { i2c ({ · with cmd := some (.start 0xA1#8) }) with moves := [.i2c .acked] })
      (fun t => (t.history, (readValue t 0#32 .i2cStatus))) =
      some ([.i2cStart, .i2cAddr 0x50#7 true true], 0x0B#32) := by decide
/-- V110, V103: the first accesses. -/
theorem test_write_n :
    refusedBy (exec (.i2cWriteN 0x80#32 0x100#32 1#32) S0) = some .badAddress ∧
    after (perform (.i2cWriteN 0x50#32 0x100#32 2#32) 3 S0) (fun t => t.history.drop 1) =
      some [.regWr .i2cData 0xA0#32, .regWr .i2cCtrl 1#32] := by decide
/-- V106: the last byte is answered with NACK. -/
theorem test_read_n :
    after (exec (.i2cReadN 0x50#32 0x100#32 2#32 1#32)
      { i2c ({ · with own := true }) with
        cur := { S0.cur with phase := .i2c .data .putCmd, loc := { Locals.none with idx := 1 } } }) (·.history) =
      some [.regWr .i2cCtrl 4#32] := by decide
/-- R312: the byte read is written back in a second transaction. -/
theorem test_rtwb :
    after (exec (.i2cRtwb 0x50#32)
      { i2c ({ · with own := true }) with
        cur := { S0.cur with phase := .i2c .data .putData, loc := { Locals.none with byte := 0x5A#8, second := true } } })
      (·.i2c.data) = some 0x5A#32 := by decide
/-- P2, access 9: a repeated START, no STOP before it. -/
theorem test_rtwb_rs :
    after (exec (.i2cRtwbRs 0x50#32) (at_ (.i2c .restart .addrCtrl) (i2c ({ · with own := true })))) (·.history) =
      some [.regWr .i2cCtrl 0x10#32] := by decide
/-- P2, run B: the address not acknowledged, STOP, then the code. -/
theorem test_rtwb_rs_nack :
    after (perform (.i2cRtwbRs 0x50#32) 2 (at_ (.i2c .addrSent .waitDone) (i2c ({ · with own := true, done := true }))))
      (fun t => (t.cur.result, t.i2c.cmd)) = some (some 0xFFFFFFFE#32, some .stop) := by decide
/-- V114. -/
theorem test_set_prescale : after (exec (.i2cSetPrescale 159#32) S0) (·.i2c.prescale) = some 159#32 := by decide
/-- R280. -/
theorem test_wr_i2c_data : after (exec (.wrI2cData 0x1A0#32) S0) (·.i2c.data) = some 0xA0#32 := by decide

/-! ### Timer and PWM -/

/-- V130. -/
theorem test_mtime_halves :
    after (exec .rdTimerMtimeLo { S0 with timer := { mtime := 0xFFFFFFFF#64, mtimecmp := 0#64 } }) (·.cur.result) =
      some (some 0xFFFFFFFF#32) ∧
    after (exec .rdTimerMtimeHi { S0 with timer := { mtime := 0x100000000#64, mtimecmp := 0#64 } }) (·.cur.result) =
      some (some 1#32) := by decide
/-- V131. -/
theorem test_timer_level :
    after (step { S0 with timer := { mtime := 5#64, mtimecmp := 10#64 }, moves := [.timer 5#64] })
      (fun t => (mip t).getLsbD 7) = some true ∧ (mip S0).getLsbD 7 = false := by decide
/-- V132. -/
theorem test_mtimecmp :
    after (exec (.wrTimerMtimecmpLo 20#32) both) (fun t => (mip t).getLsbD 7) = some false ∧
    after (exec (.wrTimerMtimecmpHi 1#32) S0) (·.timer.mtimecmp) = some 0x10000000A#64 := by decide
/-- V14. -/
theorem test_wr_period : after (exec (.wrPwm0Period 0x1ABCD#32) S0) (·.pwm0.period) = some 0xABCD#16 := by decide
/-- V121. -/
theorem test_pwm_init :
    after (perform (.pwmInit 1#32) 3 S0) (·.history) =
      some [.regWr (.pwmCtrl .c1) 0#32, .regWr (.pwmPeriod .c1) 0#32, .regWr (.pwmDuty .c1) 0#32] := by decide
/-- V122. -/
theorem test_pwm_channel :
    after (exec (.pwmInit 2#32) S0) (·.cur.result) = some (some 0xFFFFFFFF#32) ∧
    after (exec (.pwmEnable 0xFFFFFFFF#32) S0) (·.cur.result) = some (some 0xFFFFFFFF#32) := by decide
/-- V123. -/
theorem test_set_period :
    after (exec (.pwmSetPeriod 0#32 0xFFFF#32) S0) (·.pwm0.period) = some 0xFFFF#16 ∧
    after (exec (.pwmSetPeriod 0#32 0x10000#32) S0) (fun t => (t.pwm0.period, t.cur.result)) =
      some (0#16, some 0xFFFFFFFF#32) := by decide
/-- V124. -/
theorem test_set_duty : after (exec (.pwmSetDuty 0#32 200#32) S0) (·.pwm0.duty) = some 200#16 := by decide
/-- V125, V126. -/
theorem test_pwm_enable :
    after (perform (.pwmEnable 0#32) 2 S0) (·.pwm0.ctrl) = some 1#32 ∧
    after (perform (.pwmDisable 0#32) 2 { S0 with pwm0 := { ctrl := 1#32, period := 0#16, duty := 0#16 } }) (·.pwm0.ctrl) =
      some 0#32 := by decide
/-- V127. -/
theorem test_pwm_start :
    after (perform (.pwmStart 1#32 1000#32 250#32) 4 S0) (·.pwm1) =
      some { ctrl := 1#32, period := 1000#16, duty := 250#16 } := by decide
/-- V129: the draw is the test state's zero. -/
theorem test_read_counter :
    after (exec (.pwmReadCounter 0#32) S0) (·.cur.result) = some (some 0#32) ∧
    after (exec (.pwmReadCounter 2#32) S0) (·.cur.result) = some (some 0xFFFFFFFF#32) := by decide

/-! ### Table words -/

/-- The words of spec/opcode_table.json for WR GPIO.OUT, IRQ.GLOBAL_ENABLE and SPI.START16, and the first one's step from reset. -/
theorem test_table_words :
    decodeTableWord 9 0x104 = some (.wrGpioOut 0#32) ∧ decodeTableWord 8 0x33 = some .irqGlobalEnable ∧
    decodeTableWord 32 3 = some .spiStart16 := by decide
theorem test_fetch : after (step (State.reset.withFetchWord 9 0x104)) (·.cur.prog) = some [] := by decide

/-! ### Witnesses: for each statement with hypotheses a state and operands that meet them, at the boundaries of its clauses -/

theorem test_witness_GpioPinOutputOperationsChangeOneBit :
    S0.cur.phase = .idle ∧ S0.params.pinMax ≤ 31 ∧ (7#32).toNat ≤ S0.params.pinMax ∧ (1#32).toNat < 2 ∧ ¬(2#32).toNat < 2 ∧
    (gpio ({ · with dir := 0x80#32 })).params.loopback = true ∧
    (gpio ({ · with dir := 0x80#32 })).gpio.dir.getLsbD (7#32).toNat = S0.params.dirOutIs1 := by decide
theorem test_witness_GpioSetDirChangesOneDirection :
    S0.cur.phase = .idle ∧ S0.params.pinMax ≤ 31 ∧ (7#32).toNat ≤ S0.params.pinMax ∧ (1#32).toNat < 2 ∧ ¬(2#32).toNat < 2 := by
  decide
theorem test_witness_GpioInterruptEnableChangesOneBit :
    S0.cur.phase = .idle ∧ S0.params.pinMax ≤ 31 ∧ (7#32).toNat ≤ S0.params.pinMax := by decide
theorem test_witness_GpioPinOneAccessOperations : S0.params.pinMax ≤ 31 ∧ (7#32).toNat ≤ S0.params.pinMax := by decide
theorem test_witness_GpioPinOutOfRangeReturnsError :
    S0.params.pinMax < (8#32).toNat ∧ (after (exec (.gpioSetDirMask 1#32) S0) fun _ => true) = some true := by decide
theorem test_witness_GpioToggleAllFlipsEveryPin : S0.cur.phase = .idle := by decide
theorem test_witness_EnvironmentMovesChangeTheirOwnState :
    S0.faulted = none ∧ S0.refused = none ∧ { S0 with moves := [.pads 1#32] }.moves = Move.pads 1#32 :: [] ∧
    { S0 with moves := [.extBusy true] }.moves = Move.extBusy true :: [] ∧ S0.i2c.own = false ∧
    (i2c ({ · with own := true })).i2c.own = true := by decide
theorem test_witness_EdgeDetectorLatchesRisingEdges :
    S0.faulted = none ∧ S0.refused = none ∧ { S0 with moves := [.detect] }.moves = Move.detect :: [] := by decide
/-- A fair run with a level that stays: the detector alone moves, pin 0 held at a level. -/
def sampling (ext : Word) (n : Nat) : State :=
  { gpio ({ · with ext := ext, inPrev := ext }) with draws := Draws.next^[n] S0.draws }
theorem test_sampling_pads (d : Word) :
    padLevels P0 (sampling 0#32 0).gpio d = 0#32 ∧ padLevels P0 (sampling 1#32 0).gpio d = 1#32 := by
  simp only [padLevels, P0, if_true]; decide
theorem test_witness_EdgeDetectorFairRun :
    (∀ ext ∈ [0#32, 1#32], Runs (fun _ => .detect) (sampling ext)) ∧ DetectorFair (fun _ => .detect) ∧
    0 ≤ (sampling 1#32 0).params.pinMax ∧ (∀ m, 0 ≤ m → (sampling 1#32 m).padLevel 0 = true) ∧
    ∀ m, 0 ≤ m → (sampling 0#32 m).padLevel 0 = false := by
  refine ⟨fun ext h n => ?_, fun n => ⟨n, Nat.le_refl n, rfl⟩, by decide, fun m _ => ?_, fun m _ => ?_⟩
  · have hp := test_sampling_pads (sampling ext n).draws.head
    simp only [List.mem_cons, List.not_mem_nil, or_false] at h
    rcases h with rfl | rfl
    · show Host.Outcome.next (edgeDetector (sampling 0#32 n)) = _
      simp only [edgeDetector, latchedPins, risingPins]
      rw [show padLevels (sampling 0#32 n).params (sampling 0#32 n).gpio (sampling 0#32 n).draws.head = 0#32 from hp.1]
      simp [sampling, gpio, S0, P0, pinEvents, Function.iterate_succ_apply']
    · show Host.Outcome.next (edgeDetector (sampling 1#32 n)) = _
      simp only [edgeDetector, latchedPins, risingPins]
      rw [show padLevels (sampling 1#32 n).params (sampling 1#32 n).gpio (sampling 1#32 n).draws.head = 1#32 from hp.2]
      simp [sampling, gpio, S0, P0, pinEvents, Function.iterate_succ_apply']
  · simp [State.padLevel, sampling, gpio, S0, P0]
  · simp [State.padLevel, sampling, gpio, S0, P0]
/-- Each clause: a step that changes DIR, OUT, INT_EN, sets a flag, clears a flag. -/
theorem test_witness_GpioRegistersChangeOnlyByTheirInstructions :
    after (step (S0.placed (.stmt .op (opBytes 0x12#8 1#32 0#32 0#32 0#32)))) (·.gpio.dir) = some 1#32 ∧
    after (step (S0.placed (.stmt .op (opBytes 0x18#8 1#32 0#32 0#32 0#32)))) (·.gpio.out) = some 1#32 ∧
    after (step (S0.placed (.stmt (.mmio .gpio) (mmioBytes 0x10C 1#32)))) (·.gpio.intEn) = some 1#32 ∧
    after (step { gpio ({ · with ext := 1#32 }) with moves := [.detect] }) (·.gpio.intPend) = some 1#32 ∧
    after (step ((gpio ({ · with intPend := 1#32 })).placed (.stmt .op (opBytes 0x1E#8 0#32 0#32 0#32 0#32))))
      (·.gpio.intPend) = some 0#32 := by decide
theorem test_witness_IrqInitZeroesTableThenArms : S0.cur.phase = .idle ∧ 16 ≤ 16 := by decide
theorem test_witness_IrqRegisterBindsOneEntry :
    S0.disp.state = .armed ∧ (15#32).toNat < 16 ∧ 16 ≤ (16#32).toNat := by decide
theorem test_witness_IrqDispatchCallsTheBoundHandler :
    S0.disp.state = .armed ∧ S0.cur.phase = .idle ∧ (7#32).getLsbD 31 = false ∧ 16 ≤ (0x80000010#32).toNat % 2 ^ 31 ∧
    S0.handlerOf ((0x8000000F#32).toNat % 2 ^ 31) = 0#32 ∧ (0x8000000F#32).getLsbD 31 = true ∧
    (0x8000000F#32).toNat % 2 ^ 31 < 16 ∧ (S0.bind 15 0x2000#32).handlerOf ((0x8000000F#32).toNat % 2 ^ 31) ≠ 0#32 ∧
    (at_ .irqReturn S0).cur.phase = .irqReturn := by decide

/-- A handler that has run its body, called by the main context. -/
def inHandler : State :=
  { S0 with susp := [Frame.idleMain], cur := { Frame.idleMain with kind := .handler 7 0x2000#32 } }

theorem test_witness_HandlerEndReturnsToItsCaller :
    inHandler.HostToMove ∧ pendingInterrupt inHandler = none ∧ inHandler.cur.kind = .handler 7 0x2000#32 ∧
    inHandler.cur.prog = [] ∧ inHandler.cur.raising = none ∧ inHandler.susp = Frame.idleMain :: [] := by decide

/-- Before IRQ.INIT. -/
def unarmed : State := { S0 with disp := { S0.disp with state := .uninitialized } }

theorem test_witness_IrqUseBeforeInitStops : unarmed.disp.state = .uninitialized ∧ unarmed.cur.phase = .idle := by decide
theorem test_witness_IrqEnablesTakeEffectBeforeReturn : S0.cur.phase = .idle ∧ S0.disp.state = .armed := by decide
theorem test_witness_IrqDisablesClearOneBit : unarmed.cur.phase = .idle := by decide
theorem test_witness_PendingInterruptIsTakenExternalFirst :
    both.HostToMove ∧ both.disp.state = .armed ∧ both.trapDepth = 0 ∧ both.csr.mstatusMIE = true ∧
    both.csr.mie.getLsbD 11 = true ∧ gpioIrq both = true ∧
    { both with gpio := S0.gpio }.csr.mie.getLsbD 7 = true ∧
    { both with gpio := S0.gpio }.timer.mtimecmp.toNat ≤ { both with gpio := S0.gpio }.timer.mtime.toNat ∧
    gpioIrq { both with gpio := S0.gpio } = false := by decide
theorem test_witness_TrapEntryStopsOrIsNotDue :
    both.HostToMove ∧ pendingInterrupt both = some 11 ∧
    pendingInterrupt { both with disp := unarmed.disp } = some 11 ∧
    { both with disp := unarmed.disp }.disp.state = .uninitialized ∧
    { both with trapDepth := 1 }.disp.state = .armed ∧ 1 ≤ { both with trapDepth := 1 }.trapDepth := by decide

/-- In the entry stub, over the interrupted main context. -/
def inStub (ph : Phase) : State :=
  { S0 with trapDepth := 1, susp := [Frame.idleMain], cur := { stubFrame 0x100#32 with phase := ph } }

theorem test_witness_EntryStubDispatchesThenReturns :
    (inStub .stubEntry).HostToMove ∧ (inStub .idle).HostToMove ∧ (inStub .stubEntry).csr.mstatusMIE = false ∧
    (inStub .stubEntry).cur.kind = .stub 0x100#32 ∧ (inStub .stubEntry).cur.prog = [] ∧
    (inStub .stubEntry).cur.raising = none ∧ (inStub .stubEntry).cur.phase = .stubEntry ∧
    (inStub .idle).cur.phase ≠ .stubEntry ∧ (inStub .idle).susp = Frame.idleMain :: [] ∧
    ([] : List Frame).length = (inStub .idle).csr.mepc.depth := by decide

/-- The main context raising exception 2. -/
def raising : State := { S0 with cur := { S0.cur with raising := some 2#31 } }

theorem test_witness_ExceptionIsIgnoredAndRaisedAgain :
    raising.faulted = none ∧ raising.refused = none ∧ raising.moves = [] ∧ pendingInterrupt raising = none ∧
    raising.disp.state = .armed ∧ raising.trapDepth = 0 ∧ raising.cur.raising = some 2#31 := by decide

/-- IRQ.GLOBAL_ENABLE before its write, with both interrupts waiting. -/
def enabling : State :=
  { both with
    csr := { both.csr with mstatusMIE := false }
    cur := { S0.cur with prog := [.stmt .op (opBytes 0x33#8 0#32 0#32 0#32 0#32)], phase := .csrWrite } }

theorem test_witness_GlobalEnableIsInterruptedBeforeReturn :
    enabling.faulted = none ∧ enabling.refused = none ∧ enabling.moves = [] ∧ enabling.disp.state = .armed ∧
    enabling.trapDepth = 0 ∧ enabling.csr.mstatusMIE = false ∧ enabling.cur.raising = none ∧
    enabling.cur.prog = .stmt .op (opBytes 0x33#8 0#32 0#32 0#32 0#32) :: [] ∧
    requestTurn enabling.params (.stmt .op (opBytes 0x33#8 0#32 0#32 0#32 0#32)) = .instr .irqGlobalEnable ∧
    enabling.cur.phase = .csrWrite ∧ enabling.csr.mie.getLsbD 11 = true ∧ gpioIrq enabling = true ∧
    enabling.csr.mie.getLsbD 7 = true ∧ enabling.timer.mtimecmp.toNat ≤ enabling.timer.mtime.toNat := by decide
theorem test_witness_SpiAndI2cReadsChangeNothing : S0.params.Valid := test_params_valid
theorem test_witness_SpiCommandStartsOneUnit :
    S0.params.Valid ∧ S0.spi.inflight = none ∧
      7#32 ∉ [S0.params.spiStart8, S0.params.spiStart16, S0.params.spiStart32] := ⟨test_params_valid, by decide⟩

/-- A unit in flight. -/
def sending : State := spi ({ · with busy := true, inflight := some ⟨.w8, 0xA5#32⟩ })

theorem test_witness_SpiWriteInFlightIsOverrun :
    sending.spi.inflight.isSome = true ∧ sending.cur.phase = .idle ∧ (at_ .rmwWrite sending).cur.phase = .rmwWrite ∧
    (at_ .rmwWrite sending).spi.inflight.isSome = true := by decide
theorem test_witness_SpiEngineExchangesOneUnit :
    sending.faulted = none ∧ sending.refused = none ∧ { sending with moves := [.spi 0#32] }.moves = Move.spi 0#32 :: [] ∧
    sending.spi.inflight = some ⟨.w8, 0xA5#32⟩ ∧ { S0 with moves := [.spi 0#32] }.spi.inflight = none := by decide
theorem test_witness_SpiTransferReturnsTheAnswer :
    S0.params.Valid ∧ S0.cur.phase = .idle ∧ S0.spi.inflight = none ∧ (0xFF#32).toNat < 2 ^ SpiWidth.bits .w8 ∧
    ¬(0x100#32).toNat < 2 ^ SpiWidth.bits .w8 := ⟨test_params_valid, by decide⟩
theorem test_witness_SpiTransferWaitsForDone : S0.params.Valid ∧ S0.cur.phase = .idle ∧ S0.spi.inflight = none :=
  ⟨test_params_valid, by decide⟩
/-- A count that is not above zero; a buffer whose last byte is the first of the GPIO window; a misaligned buffer, loaded first or
for a later unit, and stored to. -/
theorem test_witness_SpiMultiUnitChecksItsOperands :
    S0.cur.phase = .idle ∧ (0#32).toInt ≤ 0 ∧ (0xFFFFFFFF#32).toInt ≤ 0 ∧ 0 < (2#32).toInt ∧
    (0x0FFFFFFE#32).toNat ≤ 0x10000000 ∧ 0x10000000 < (0x0FFFFFFE#32).toNat + (2#32).toNat * SpiWidth.bytes .w16 ∧
    (∃ win ∈ S0.params.bases.windows, win.1 ≤ 0x10000000 ∧ 0x10000000 < win.1 + win.2) ∧
    (0x101#32).toNat % SpiWidth.bytes .w16 ≠ 0 ∧ (0x102#32).toNat % SpiWidth.bytes .w32 ≠ 0 ∧
    (at_ .spiUnit S0).cur.phase = .spiUnit ∧ (at_ .spiStore S0).cur.phase = .spiStore := by decide
/-- Unit 0 of two from the start, and the last unit of two, 16-bit units at the top of the address space. -/
theorem test_witness_SpiMultiUnitExchangesEachUnit :
    S0.params.Valid ∧ S0.spi.inflight = none ∧ S0.mem.wf ∧ (1 : Int) < (2#32).toInt ∧ S0.cur.phase = .idle ∧
    bufferOverlaps S0.params.bases (some 0xFFFFFFFC#32) ((2#32).toNat * SpiWidth.bytes .w16) = false ∧
    bufferOverlaps S0.params.bases none ((2#32).toNat * SpiWidth.bytes .w16) = false ∧
    (at_ .spiUnit { S0 with cur := { S0.cur with loc := { Locals.none with idx := 1 } } }).cur.phase = .spiUnit ∧
    (at_ .spiUnit { S0 with cur := { S0.cur with loc := { Locals.none with idx := 1 } } }).cur.loc.idx = 1 ∧
    (0xFFFFFFFC#32).toNat % SpiWidth.bytes .w16 = 0 ∧ (0xFFFFFFFC#32).toNat + (1 + 1) * SpiWidth.bytes .w16 ≤ 2 ^ 32 ∧
    (0 : Int) + 1 < (2#32).toInt ∧ (2#32).toInt = (1 : Int) + 1 := ⟨test_params_valid, by decide⟩
theorem test_witness_SpiBurstChecksBeforeAnyWrite :
    S0.cur.phase = .idle ∧
    fieldValue S0.params.spiDivLsb S0.params.spiDivW (31#32) ∉ [S0.params.burstDivW2, S0.params.burstDivW4] ∧
    fieldValue S0.params.spiDivLsb S0.params.spiDivW (2#32) = S0.params.burstDivW2 ∧
    fieldValue S0.params.spiDivLsb S0.params.spiDivW (4#32) = S0.params.burstDivW4 ∧
    S0.params.burstDivW4 ≠ S0.params.burstDivW2 ∧ (3#32).toNat % SpiWidth.bytes .w16 ≠ 0 ∧
    (6#32).toNat % SpiWidth.bytes .w32 ≠ 0 ∧ (4#32).toNat % SpiWidth.bytes .w16 = 0 ∧
    (0x101#32).toNat % SpiWidth.bytes .w16 ≠ 0 ∧ (0x102#32).toNat % SpiWidth.bytes .w32 ≠ 0 ∧
    (0x0FFFFFFE#32).toNat ≤ 0x10000000 ∧ 0x10000000 < (0x0FFFFFFE#32).toNat + (4#32).toNat ∧
    (∃ win ∈ S0.params.bases.windows, win.1 ≤ 0x10000000 ∧ 0x10000000 < win.1 + win.2) ∧
    (0x100#32).toNat % SpiWidth.bytes .w16 = 0 ∧ S0.params.burstFinalWait = false := by decide
/-- With SPI_BURST_FINAL_WAIT. -/
def PW : Params := { P0 with burstFinalWait := true }
theorem test_waiting_params_valid : PW.Valid := by
  obtain ⟨a1, a2, a3, a4, a5, a6, a7, a8, a9, a10, a11, a12, a13, a14, a15, a16⟩ := test_params_valid
  exact ⟨a1, a2, a3, a4, a5, a6, a7, a8, a9, a10, a11, a12, a13, a14, a15, a16⟩
/-- The first unit of two, and the end after the last, for both widths and with or without the final wait. -/
theorem test_witness_SpiBurstWritesUnitsBackToBack :
    (burst 2#32).params.Valid ∧ PW.Valid ∧ (burst 2#32).params.burstFinalWait = false ∧ PW.burstFinalWait = true ∧
    (burst 2#32).cur.phase = .burstUnit ∧ (burst 2#32).cur.loc.idx = 0 ∧
    fieldValue P0.spiDivLsb P0.spiDivW (burst 2#32).cur.loc.v = P0.burstDivW2 ∧
    fieldValue P0.spiDivLsb P0.spiDivW (burst 4#32).cur.loc.v = P0.burstDivW4 ∧
    (4#32).toNat % SpiWidth.bytes .w16 = 0 ∧ (0x100#32).toNat % SpiWidth.bytes .w16 = 0 ∧
    overlapsWindow (burst 2#32).params.bases (0x100#32).toNat (4#32).toNat = false ∧
    (0x100#32).toNat + (4#32).toNat ≤ 2 ^ 32 ∧ (4#32).toNat = 2 * SpiWidth.bytes .w16 ∧
    (4#32).toNat = 1 * SpiWidth.bytes .w32 ∧
    0 * SpiWidth.bytes .w16 < (4#32).toNat ∧ (burst 2#32).spi.inflight = none ∧
    { burst 2#32 with spi := sending.spi }.spi.inflight.isSome = true :=
  ⟨test_params_valid, test_waiting_params_valid, by decide⟩
/-- The run from `s` that makes the moves of a list, then samples for ever. -/
def runOf (ms : List Move) (s : State) : Nat → State
  | 0 => s
  | n + 1 => ((runOf ms s n).toMove (ms.getD n .detect)).absorb (step ((runOf ms s n).toMove (ms.getD n .detect)))
/-- V82 as a statement: two 16-bit units. -/
def bursting (x : Spi → Spi) : State :=
  { spi (fun y => x { y with config := 2#32 }) with
    mem := [(0x100, 0x11#8), (0x101, 0x22#8)]
    cur := { S0.cur with prog := [.stmt .op (opBytes 0x46#8 0x100#32 4#32 0#32 0#32)] } }
/-- The engine answers between the units and after the last. -/
def absorbing : List Move := [.host, .host, .host, .host, .spi 0#32, .host, .host, .host, .spi 0#32, .host]
theorem test_absorbing_phases :
    ∀ k < 10, ((runOf absorbing (bursting id) k).cur.phase = .burstCtrl → k = 3 ∨ k = 7) ∧
      ((runOf absorbing (bursting id) k).cur.phase = .burstTx → k = 2 ∨ k = 6) := by decide
/-- Every hypothesis of the second clause, and both of its ends: two units sent in order, OK returned. -/
theorem test_witness_SpiBurstAbsorbs :
    RunsOrStops (absorbing.getD · .detect) (runOf absorbing (bursting id)) ∧
    SpiBurstAbsorbs (absorbing.getD · .detect) (runOf absorbing (bursting id)) ∧
    (∀ k code, absorbing.getD k .detect ≠ .raise code) ∧ (bursting id).params.Valid ∧
    ((bursting id).faulted = none ∧ (bursting id).refused = none ∧ (bursting id).csr.mstatusMIE = false ∧
      (bursting id).spi.inflight = none ∧ (bursting id).cur.raising = none ∧ (bursting id).cur.phase = .idle ∧
      ((bursting id).cur.prog.head?.map (requestTurn (bursting id).params)) = some (.instr (.spiBurst 0x100#32 4#32)) ∧
      fieldValue P0.spiDivLsb P0.spiDivW (bursting id).spi.config = P0.burstDivW2 ∧
      hostMoves (absorbing.getD · .detect) 10 = 3 * ((4#32).toNat / SpiWidth.bytes .w16) + 2) ∧
    spiUnits (runOf absorbing (bursting id) 10).history = [{ width := .w16, value := 0x2211#32 }, { width := .w16, value := 0#32 }] ∧
    (runOf absorbing (bursting id) 10).cur.result = some 0#32 := by
  have hd : ∀ k, absorbing.getD k .detect = .host → k < 10 := by
    intro k h
    rcases Nat.lt_or_ge k 10 with hk | hk
    · exact hk
    · rw [List.getD_eq_getElem?_getD, List.getElem?_eq_none hk] at h; cases h
  refine ⟨fun n => rfl, fun depth i n m h hn hm => ?_, fun k code => ?_, test_params_valid, by decide, by decide, by decide⟩
  · have h1 := (test_absorbing_phases n (hd n hn.host)).1 hn.phase
    have h2 := (test_absorbing_phases m (hd m hm.host)).2 hm.phase
    exact ⟨4, by omega, by omega, 0#32, rfl, by decide, by rw [not_stopped]; decide⟩
  · rcases Nat.lt_or_ge k 10 with hk | hk
    · interval_cases k <;> exact fun h => by cases h
    · rw [List.getD_eq_getElem?_getD, List.getElem?_eq_none hk]; exact fun h => by cases h
/-- R423: the premise holds of a run whose burst finds a unit still in flight, and its first write overruns it. -/
def overrunning : Nat → State :=
  runOf [.host, .host, .host] (bursting ({ · with busy := true, inflight := some ⟨.w8, 0xA5#32⟩ }))
theorem test_absorbs_leaves_first_unit :
    SpiBurstAbsorbs ([Move.host, .host, .host].getD · .detect) overrunning ∧
    (overrunning 3).faulted = some (.spiOverrun .spiTxdata) := by
  refine ⟨fun depth i n m _ hn _ => ?_, by decide⟩
  have h : ∀ k < 3, (overrunning k).cur.phase ≠ .burstCtrl := by decide
  refine absurd hn.phase (h n ?_)
  have hh := hn.host
  rcases Nat.lt_or_ge n 3 with hk | hk
  · exact hk
  · rw [List.getD_eq_getElem?_getD, List.getElem?_eq_none hk] at hh; cases hh
theorem test_witness_SpiSettersRewriteTheirOwnField :
    S0.params.Valid ∧ S0.cur.phase = .idle ∧ S0.spi.inflight = none := ⟨test_params_valid, by decide⟩
theorem test_witness_I2cDataAndPrescaleWritesStore : S0.i2c.cmd = none := by decide
theorem test_witness_I2cCommandStartsOnePhase :
    S0.params.Valid ∧ S0.i2c.cmd = none ∧ (!S0.i2c.own) = true ∧ (i2c ({ · with own := true })).i2c.own = true ∧
    3#32 ∉ [S0.params.i2cStart, S0.params.i2cRestart, S0.params.i2cWrite, S0.params.i2cReadAck, S0.params.i2cReadNack,
      S0.params.i2cStop] := ⟨test_params_valid, by decide⟩
theorem test_witness_I2cWriteInFlightStops : (i2c ({ · with cmd := some .stop })).i2c.cmd.isSome = true := by decide
theorem test_witness_I2cEngineFollowsTheTable :
    S0.faulted = none ∧ S0.refused = none ∧ { S0 with moves := [.i2c .acked] }.moves = Move.i2c .acked :: [] ∧
    (i2c ({ · with cmd := some (.start 0xA1#8) })).i2c.cmd = some (.start 0xA1#8) ∧
    i2cTable S0.params false .stop .busError = none := by decide
theorem test_witness_I2cClassifyOrdersTheErrors :
    (0x1C#32).getLsbD P0.i2cErrorBit = true ∧ (0x0C#32).getLsbD P0.i2cErrorBit = false ∧
    (0x0C#32).getLsbD P0.i2cArbLostBit = true ∧ (0x08#32).getLsbD P0.i2cErrorBit = false ∧
    (0x08#32).getLsbD P0.i2cArbLostBit = false ∧ (0x08#32).getLsbD P0.i2cAckBit ≠ P0.ackIs1 ∧
    (0x0A#32).getLsbD P0.i2cAckBit = P0.ackIs1 := by decide
theorem test_witness_I2cOperationsWaitForAnIdleBus :
    S0.params.Valid ∧ S0.cur.phase = .idle ∧
    overlapsWindow S0.params.bases (0x100#32).toNat (2#32).toNat = false ∧ 0x7F < (0x80#32).toNat ∧
    (0x7F#32).toNat ≤ 0x7F ∧ (0x0FFFFFFF#32).toNat ≤ 0x10000000 ∧ 0x10000000 < (0x0FFFFFFF#32).toNat + (2#32).toNat ∧
    ∃ win ∈ S0.params.bases.windows, win.1 ≤ 0x10000000 ∧ 0x10000000 < win.1 + win.2 := ⟨test_params_valid, by decide⟩
/-- A buffer that ends at the top of the address space, for the three statements on whole I2C transactions. -/
theorem test_witness_I2cWriteNSendsTheBufferInOrder :
    S0.params.Valid ∧ S0.cur.phase = .idle ∧ S0.i2c.cmd = none ∧ S0.i2c.own = false ∧ S0.i2c.extBusy = false ∧
    (0x7F#32).toNat ≤ 0x7F ∧ overlapsWindow S0.params.bases (0xFFFFFFFE#32).toNat (2#32).toNat = false ∧
    (0xFFFFFFFE#32).toNat + (2#32).toNat ≤ 2 ^ 32 := ⟨test_params_valid, by decide⟩
theorem test_witness_I2cReadNFillsTheBuffer :
    S0.params.Valid ∧ S0.mem.wf ∧ S0.cur.phase = .idle ∧ S0.i2c.cmd = none ∧ S0.i2c.own = false ∧
    S0.i2c.extBusy = false ∧ (0x7F#32).toNat ≤ 0x7F ∧
    overlapsWindow S0.params.bases (0xFFFFFFFE#32).toNat (2#32).toNat = false ∧
    (0xFFFFFFFE#32).toNat + (2#32).toNat ≤ 2 ^ 32 ∧ [0xAB#8, 0xCD#8].length = (2#32).toNat :=
  ⟨test_params_valid, by decide⟩
theorem test_witness_I2cRtwbReadsThenWritesBack :
    S0.params.Valid ∧ S0.cur.phase = .idle ∧ S0.i2c.cmd = none ∧ S0.i2c.own = false ∧ S0.i2c.extBusy = false ∧
    (0x7F#32).toNat ≤ 0x7F := ⟨test_params_valid, by decide⟩
theorem test_witness_I2cRtwbRsUsesARepeatedStart :
    S0.params.Valid ∧ S0.cur.phase = .idle ∧ S0.i2c.cmd = none ∧ S0.i2c.own = false ∧ S0.i2c.extBusy = false ∧
    (0x7F#32).toNat ≤ 0x7F := ⟨test_params_valid, by decide⟩
/-- The three errors, the places an operation waits for the end of a phase, whether its acknowledge is checked or not, and the wait
after an abort. -/
theorem test_witness_I2cErrorsCommandStopThenReturn :
    S0.params.Valid ∧ { P0 with abortWaits := true }.abortWaits = true ∧ (i2c ({ · with done := true })).i2c.cmd = none ∧
    (i2c ({ · with done := true })).i2c.done = true ∧ (i2c ({ · with error := true })).i2c.error = true ∧
    (i2c ({ · with arbLost := true })).i2c.error = false ∧ (i2c ({ · with arbLost := true })).i2c.arbLost = true ∧
    S0.i2c.ack ≠ S0.params.ackIs1 ∧ (at_ (.i2c .addrSent .waitDone) S0).cur.phase = .i2c .addrSent .waitDone ∧
    (at_ (.i2c .data .waitDone) S0).cur.phase = .i2c .data .waitDone ∧ S0.cur.loc.second = false ∧
    { S0.cur with loc := { Locals.none with second := true } }.loc.second = true ∧
    (at_ (.i2c .stop .waitDone) S0).cur.phase = .i2c .stop .waitDone ∧
    { at_ (.i2c .stop .abortIdle) S0 with
      cur := { S0.cur with phase := .i2c .stop .abortIdle, loc := { Locals.none with code := P0.errBus } } }.cur.loc.code ≠
      0#32 := ⟨test_params_valid, by decide⟩
theorem test_witness_TimerAdvancesAndRaisesItsLevel :
    S0.faulted = none ∧ S0.refused = none ∧ { S0 with moves := [.timer 1#64] }.moves = Move.timer 1#64 :: [] := by decide
theorem test_witness_PwmRangeErrorsTouchNothing : 1 < (2#32).toNat ∧ 0xFFFF < (0x10000#32).toNat := by decide
theorem test_witness_PwmSettersStoreTheirValue : (0xFFFF#32).toNat ≤ 0xFFFF := by decide
theorem test_witness_PwmSequencesWriteInOrder :
    S0.params.Valid ∧ S0.cur.phase = .idle ∧ (0xFFFF#32).toNat ≤ 0xFFFF ∧ (0#32).toNat ≤ 0xFFFF :=
  ⟨test_params_valid, by decide⟩
theorem test_witness_DecodeOfEncodeIsTheInstruction :
    P0.Valid ∧ (Instr.i2cReadN 0xFFFFFFFF#32 0xFFFFFFFF#32 0xFFFFFFFF#32 1#32).wellFormed = true :=
  ⟨test_params_valid, by decide⟩

/-- The main context about to run IRQ.GLOBAL_DISABLE, or a statement with no row. -/
def running (q : Request) : State := { S0 with cur := { S0.cur with prog := [q] } }

theorem test_witness_StepRunsTheDecodedInstruction :
    (running (.stmt .op (opBytes 0x34#8 0#32 0#32 0#32 0#32))).HostToMove ∧
    pendingInterrupt (running (.stmt .op (opBytes 0x34#8 0#32 0#32 0#32 0#32))) = none ∧
    (running (.stmt .op (opBytes 0x34#8 0#32 0#32 0#32 0#32))).cur.raising = none ∧
    decodeBytes P0 .op (opBytes 0x34#8 0#32 0#32 0#32 0#32) = .ok .irqGlobalDisable ∧
    decodeBytes P0 .op (opBytes 0x22#8 0#32 0#32 0#32 0#32) = .error .illegalOp ∧
    decodeBus P0 0x10000004#32 32 true 5#32 = .ok (.wrGpioOut 5#32) := by decide
/-- Polls that hit and miss, and both micro-steps of a read-modify-write. -/
theorem test_witness_PollAndRmwStatementsRun :
    (running (.poll .spiStatus 0 false)).HostToMove ∧ pendingInterrupt (running (.poll .spiStatus 0 false)) = none ∧
    (running (.poll .spiStatus 0 false)).cur.raising = none ∧
    (readValue (running (.poll .spiStatus 0 false)) 0#32 .spiStatus).getLsbD 0 = false ∧
    (readValue (running (.poll .spiStatus 1 true)) 0#32 .spiStatus).getLsbD 1 ≠ true ∧
    (running (.rmw .gpioOut 0#32 2#32)).cur.phase = .idle ∧
    (after (writeEffect .gpioOut 2#32 (at_ .rmwWrite (running (.rmw .gpioOut 0#32 2#32)))) fun _ => true) = some true := by
  decide
theorem test_device_inv : S0.DeviceInv :=
  { params := test_params_valid, mem := by decide, spiBusy := by decide, spiExclusive := by decide
    spiUnit := fun u h => by cases h
    i2cOwner := by decide, i2cData := by decide, depth := by decide, notFaulted := by decide, notRefused := by decide }
theorem test_witness_StepKeepsTheDeviceInvariant :
    { S0 with moves := [.timer 1#64] }.params.Valid ∧ S0.DeviceInv ∧ after (step S0) (·.history) = some [] :=
  ⟨test_params_valid, test_device_inv, by decide⟩
/-- A trap has been taken: the stub runs over the interrupted main context. -/
theorem test_witness_StepKeepsTheContextInvariant :
    (inStub .stubEntry).ContextInv ∧ after (step (inStub .stubEntry)) (·.trapDepth) = some 1 := by
  refine ⟨⟨by decide, by decide, by decide, ?_⟩, by decide⟩
  intro inner f outer h hf
  match inner, h with
  | [], h =>
    simp only [State.contexts, inStub, List.nil_append, List.cons.injEq] at h
    exact ⟨Frame.idleMain, [], h.2.symm, rfl, rfl, rfl⟩
  | [x], h =>
    simp only [State.contexts, inStub, List.cons_append, List.nil_append, List.cons.injEq] at h
    rw [← h.2.1] at hf; cases hf
  | x :: y :: l, h => simp [State.contexts, inStub] at h

end Sys2Proof.Machine.Test
end

section
/-! Pin validation of the GPIO operations (41_gpio.md R170): a per-pin operation is `pinOp` of its body, and an operation with
no pin operand starts with the event of its register access. -/

namespace Sys2Proof.Machine

/-! ### A register access lengthens the history -/

theorem regRead_history (r : Reg) (s : State) :
    (regRead r s).2.history = s.history ++ [.regRd r (regRead r s).1] := rfl

/-- The write's own event comes before any event of its effect. -/
theorem regWrite_history_lt {r : Reg} {v : Word} {s t : State} (h : regWrite r v s = .next t) :
    s.history.length < t.history.length := by
  have hpre : s.history ++ [.regWr r v] <+: t.history := (writeEffect_devicesOnly (regWrite_next h)).history
  have hlen := hpre.length_le
  rw [List.length_append, List.length_singleton] at hlen
  omega

theorem readStatement_history_lt {r : Reg} {s t : State} (h : readStatement r s = .next t) :
    s.history.length < t.history.length := by
  cases h
  simp [regRead_history]

theorem writeStatement_history_lt {r : Reg} {v : Word} {res : Option Word} {s t : State}
    (h : writeStatement r v res s = .next t) : s.history.length < t.history.length := by
  obtain ⟨u, hu, rfl⟩ := writeStatement_next h
  rw [State.finish_history]
  exact regWrite_history_lt hu

/-- Both micro-steps of a read-modify-write are accesses. -/
theorem rmw_history_lt {r : Reg} {f : Word → Word} {res : Option Word} {s t : State} (h : rmw r f res s = .next t) :
    s.history.length < t.history.length := by
  obtain ⟨-, rfl⟩ | ⟨-, u, hu, rfl⟩ := rmw_next h
  · simp [regRead_history]
  · rw [State.finish_history]
    exact regWrite_history_lt hu

/-- Whatever the operand, a bitmask or all-pin operation is one register access, or the read-modify-write of one register. -/
theorem bitmaskOp_history_lt {x : Word} {i : Instr} {s t : State}
    (hi : i ∈ [Instr.gpioSetDirMask x, .gpioGetDirMask, .gpioWrite x, .gpioRead, .gpioIntPending, .gpioSetAll,
      .gpioClearAll, .gpioToggleAll])
    (h : exec i s = .next t) : s.history.length < t.history.length := by
  simp only [List.mem_cons, List.not_mem_nil, or_false] at hi
  obtain rfl | rfl | rfl | rfl | rfl | rfl | rfl | rfl := hi
  · exact writeStatement_history_lt (r := .gpioDir) h
  · exact readStatement_history_lt (r := .gpioDir) h
  · exact writeStatement_history_lt (r := .gpioOut) h
  · exact readStatement_history_lt (r := .gpioIn) h
  · exact readStatement_history_lt (r := .gpioIntPend) h
  · exact writeStatement_history_lt (r := .gpioOut) h
  · exact writeStatement_history_lt (r := .gpioOut) h
  · exact rmw_history_lt (r := .gpioOut) h

/-! ### Pin validation -/

theorem pinOp_outOfRange {pin : Word} {s : State} (body : State → Result) (h : s.params.pinMax < pin.toNat) :
    pinOp pin body s = .next (s.finish (some Config.error)) :=
  if_neg (by rw [pinOk_iff]; omega)

/-- Each of the ten per-pin operations validates its pin before anything else. -/
theorem exec_perPin_eq_pinOp {pin x : Word} {i : Instr}
    (hi : i ∈ [Instr.gpioSetDir pin x, .gpioGetDir pin, .gpioSetPin pin, .gpioClearPin pin, .gpioTogglePin pin,
      .gpioWritePin pin x, .gpioReadPin pin, .gpioIntEnable pin, .gpioIntDisable pin, .gpioIntClear pin])
    (s : State) : ∃ body, exec i s = pinOp pin body s := by
  simp only [List.mem_cons, List.not_mem_nil, or_false] at hi
  obtain rfl | rfl | rfl | rfl | rfl | rfl | rfl | rfl | rfl | rfl := hi <;> exact ⟨_, rfl⟩

/-- Settles O9: out of range `pinOp` returns ERROR at once; every other operation's micro-step logs its access. -/
theorem gpioPinOutOfRangeReturnsError : Obligations.GpioPinOutOfRangeReturnsError := by
  intro s pin x
  refine ⟨fun i hi t h => bitmaskOp_history_lt hi h, fun hpin i hi => ?_⟩
  obtain ⟨body, hbody⟩ := exec_perPin_eq_pinOp hi s
  rw [hbody]
  exact pinOp_outOfRange body hpin

end Sys2Proof.Machine
end

section
/-! The field setters of SPI.CONFIG (43_spi.md R252, R253): a read-modify-write whose new word is `putField` of the old one. -/

namespace Sys2Proof.Machine

/-! ### One field of a word -/

theorem getLsbD_fieldMask (lsb width b : Nat) (hb : b < 32) :
    (fieldMask lsb width).getLsbD b = decide (lsb ≤ b ∧ b < lsb + width) := by
  rw [fieldMask, BitVec.getLsbD_shiftLeft, getLsbD_onesWord, Bool.eq_iff_iff]
  simp only [Bool.and_eq_true, Bool.not_eq_true', decide_eq_true_eq, decide_eq_false_iff_not]
  omega

/-- The field takes the low bits of the operand and the word keeps its other bits. -/
theorem getLsbD_putField (lsb width : Nat) (x c : Word) (b : Nat) (hb : b < 32) :
    (putField lsb width x c).getLsbD b =
      if lsb ≤ b ∧ b < lsb + width then x.getLsbD (b - lsb) else c.getLsbD b := by
  simp only [putField, BitVec.getLsbD_or, BitVec.getLsbD_and, BitVec.getLsbD_not, BitVec.getLsbD_shiftLeft,
    getLsbD_fieldMask lsb width b hb]
  split
  next hin => simp [hin, hb, Nat.not_lt.2 hin.1]
  next hout => simp [hout, hb]

/-! ### The two micro-steps of a read-modify-write -/

theorem rmw_of_idle {r : Reg} {s : State} (f : Word → Word) (res : Option Word) (h : s.cur.phase = .idle) :
    rmw r f res s = .next ((regRead r s).2.goTo .rmwWrite { Locals.none with v := (regRead r s).1 }) := by
  rw [rmw, h]

theorem rmw_of_rmwWrite {r : Reg} {s : State} (f : Word → Word) (res : Option Word) (h : s.cur.phase = .rmwWrite) :
    rmw r f res s = writeStatement r (f s.cur.loc.v) res s := by
  rw [rmw, h]

/-- With no unit in flight a write of CONFIG stores the word. -/
theorem writeStatement_spiConfig {s : State} (v : Word) (res : Option Word) (h : s.spi.inflight = none) :
    writeStatement .spiConfig v res s =
      .next ((({ s with spi := { s.spi with config := v } } : State).emit [.regWr .spiConfig v]).finish res) := by
  have hw : regWrite .spiConfig v s =
      .next (({ s with spi := { s.spi with config := v } } : State).emit [.regWr .spiConfig v]) :=
    if_neg (by simp [h])
  rw [writeStatement, hw, andThen_next]

/-! ### The setters -/

/-- An instruction that is, under the parameters of `s`, the read-modify-write of one field of CONFIG. -/
theorem exec_configSetter {i : Instr} {x : Word} {lsb width : Nat} {s : State}
    (hi : ∀ t : State, t.params = s.params → exec i t = rmw .spiConfig (putField lsb width x) none t)
    (hidle : s.cur.phase = .idle) (hfree : s.spi.inflight = none) :
    ∃ (c : Word) (u : State),
      (∀ b, b < 32 → c.getLsbD b =
        if lsb ≤ b ∧ b < lsb + width then x.getLsbD (b - lsb) else s.spi.config.getLsbD b) ∧
      exec i s = .next u ∧
      u = ((s.emit [.regRd .spiConfig s.spi.config]).takeDraw).goTo .rmwWrite { Locals.none with v := s.spi.config } ∧
      exec i u = .next ((({ u with spi := { s.spi with config := c } } : State).emit [.regWr .spiConfig c]).finish none) := by
  obtain ⟨u, hu⟩ : ∃ u, u = ((s.emit [.regRd .spiConfig s.spi.config]).takeDraw).goTo .rmwWrite
      { Locals.none with v := s.spi.config } := ⟨_, rfl⟩
  have hparams : u.params = s.params := by rw [hu]; rfl
  have hspi : u.spi = s.spi := by rw [hu]; rfl
  have hphase : u.cur.phase = .rmwWrite := by rw [hu]; rfl
  have hkept : u.cur.loc.v = s.spi.config := by rw [hu]; rfl
  refine ⟨putField lsb width x s.spi.config, u, getLsbD_putField lsb width x s.spi.config, ?_, hu, ?_⟩
  · rw [hi s rfl, rmw_of_idle _ _ hidle, hu]
    rfl
  · rw [hi u hparams, rmw_of_rmwWrite _ _ hphase, hkept, writeStatement_spiConfig _ _ (hspi ▸ hfree), hspi]

/-- Settles O36: each setter is the read-modify-write of CONFIG by `putField`, at its own field. -/
theorem spiSettersRewriteTheirOwnField : Obligations.SpiSettersRewriteTheirOwnField := by
  intro s x _ hidle hfree
  refine ⟨rfl, rfl, fun row hrow => ?_⟩
  simp only [List.mem_cons, List.not_mem_nil, or_false] at hrow
  obtain rfl | rfl := hrow
  · exact exec_configSetter (fun t ht => by rw [← ht]; rfl) hidle hfree
  · exact exec_configSetter (fun t ht => by rw [← ht]; rfl) hidle hfree

end Sys2Proof.Machine
end

section
/-! PWM (45_timer_pwm.md): what one access of CTRL, PERIOD or DUTY does (R346 to R348), and the range checks that come before
any access (R357). -/

namespace Sys2Proof.Machine

/-! ### Accesses of a channel's registers -/

@[simp] theorem State.emit_pwm (s : State) (es : List Event) (c : Chan) : (s.emit es).pwm c = s.pwm c := by
  cases c <;> rfl

/-- Logging an event and replacing a channel's registers commute. -/
theorem State.setPwm_emit (s : State) (es : List Event) (c : Chan) (x : Pwm) :
    (s.emit es).setPwm c x = (s.setPwm c x).emit es := by
  cases c <;> rfl

/-- A read statement returns the register's value, logs it and takes one draw. -/
theorem readStatement_eq (r : Reg) (s : State) :
    readStatement r s =
      .next (((s.emit [.regRd r (readValue s s.draws.head r)]).takeDraw).finish (some (readValue s s.draws.head r))) := rfl

/-- A write whose effect, after its event, is to replace one channel's registers. -/
theorem writeStatement_of_setPwm {r : Reg} {v : Word} {c : Chan} {x : Pwm} {s : State} (res : Option Word)
    (h : writeEffect r v (s.emit [.regWr r v]) = .next ((s.emit [.regWr r v]).setPwm c x)) :
    writeStatement r v res s = .next (((s.setPwm c x).emit [.regWr r v]).finish res) := by
  rw [writeStatement, regWrite, h, andThen_next, State.setPwm_emit]

theorem writeStatement_pwmCtrl (c : Chan) (v : Word) (res : Option Word) (s : State) :
    writeStatement (.pwmCtrl c) v res s =
      .next (((s.setPwm c { s.pwm c with ctrl := v }).emit [.regWr (.pwmCtrl c) v]).finish res) :=
  writeStatement_of_setPwm res (by rw [writeEffect, State.emit_pwm])

theorem writeStatement_pwmPeriod (c : Chan) (v : Word) (res : Option Word) (s : State) :
    writeStatement (.pwmPeriod c) v res s =
      .next (((s.setPwm c { s.pwm c with period := BitVec.ofNat 16 v.toNat }).emit [.regWr (.pwmPeriod c) v]).finish res) :=
  writeStatement_of_setPwm res (by rw [writeEffect, State.emit_pwm, BitVec.ofNat_toNat])

theorem writeStatement_pwmDuty (c : Chan) (v : Word) (res : Option Word) (s : State) :
    writeStatement (.pwmDuty c) v res s =
      .next (((s.setPwm c { s.pwm c with duty := BitVec.ofNat 16 v.toNat }).emit [.regWr (.pwmDuty c) v]).finish res) :=
  writeStatement_of_setPwm res (by rw [writeEffect, State.emit_pwm, BitVec.ofNat_toNat])

/-- Settles O50: each row is one read statement, or one write statement that replaces its channel's registers. -/
theorem pwmRegistersHoldWhatIsWritten : Obligations.PwmRegistersHoldWhatIsWritten := by
  intro s v
  refine ⟨fun row hrow => ?reads, fun row hrow => ?writes0, fun row hrow => ?writes1⟩ <;>
    simp only [List.mem_cons, List.not_mem_nil, or_false] at hrow
  case reads =>
    obtain rfl | rfl | rfl | rfl | rfl | rfl := hrow
    · exact readStatement_eq (.pwmCtrl .c0) s
    · exact readStatement_eq (.pwmCtrl .c1) s
    · exact readStatement_eq (.pwmPeriod .c0) s
    · exact readStatement_eq (.pwmPeriod .c1) s
    · exact readStatement_eq (.pwmDuty .c0) s
    · exact readStatement_eq (.pwmDuty .c1) s
  case writes0 =>
    obtain rfl | rfl | rfl := hrow
    · exact writeStatement_pwmCtrl .c0 v none s
    · exact writeStatement_pwmPeriod .c0 v none s
    · exact writeStatement_pwmDuty .c0 v none s
  case writes1 =>
    obtain rfl | rfl | rfl := hrow
    · exact writeStatement_pwmCtrl .c1 v none s
    · exact writeStatement_pwmPeriod .c1 v none s
    · exact writeStatement_pwmDuty .c1 v none s

/-! ### Range checks -/

theorem channelOf_eq_none_iff {ch : Word} : channelOf ch = none ↔ 1 < ch.toNat := by
  unfold channelOf
  split
  next h => simp [h]
  next h0 =>
    split
    next h => simp [h]
    next h1 => simp only [true_iff]; bv_omega

theorem pwmValueOk_iff {v : Word} : pwmValueOk v = true ↔ v.toNat ≤ 0xFFFF := decide_eq_true_iff

theorem channelOp_outOfRange {ch : Word} (body : Chan → State → Result) (s : State) (h : 1 < ch.toNat) :
    channelOp ch body s = returnNow (some Config.error) s := by
  rw [channelOp, channelOf_eq_none_iff.2 h]

/-- The value check of R357, which stands between the channel check and the first access. -/
def valueChecked (ok : Bool) (body : Chan → State → Result) (c : Chan) (s : State) : Result :=
  if ok then body c s else returnNow (some Config.error) s

theorem exec_pwmSetPeriod (ch x : Word) (s : State) :
    exec (.pwmSetPeriod ch x) s =
      channelOp ch (valueChecked (pwmValueOk x) fun c => writeStatement (.pwmPeriod c) x (some Config.ok)) s := rfl

theorem exec_pwmSetDuty (ch x : Word) (s : State) :
    exec (.pwmSetDuty ch x) s =
      channelOp ch (valueChecked (pwmValueOk x) fun c => writeStatement (.pwmDuty c) x (some Config.ok)) s := rfl

theorem exec_pwmStart (ch x y : Word) (s : State) :
    exec (.pwmStart ch x y) s =
      channelOp ch (valueChecked (pwmValueOk x && pwmValueOk y) (pwmStartSteps x y)) s := rfl

/-- A failed value check and a failed channel check return the same, so the channel operand makes no difference. -/
theorem channelOp_valueChecked_false (ch : Word) (body : Chan → State → Result) (s : State) :
    channelOp ch (valueChecked false body) s = returnNow (some Config.error) s := by
  unfold channelOp
  split <;> rfl

/-- Each of the seven PWM operations validates its channel before anything else. -/
theorem exec_pwm_eq_channelOp {ch x y : Word} {i : Instr}
    (hi : i ∈ [Instr.pwmInit ch, .pwmSetPeriod ch x, .pwmSetDuty ch x, .pwmEnable ch, .pwmDisable ch, .pwmStart ch x y,
      .pwmReadCounter ch])
    (s : State) : ∃ body, exec i s = channelOp ch body s := by
  simp only [List.mem_cons, List.not_mem_nil, or_false] at hi
  obtain rfl | rfl | rfl | rfl | rfl | rfl | rfl := hi
  · exact ⟨pwmInitSteps, rfl⟩
  · exact ⟨_, exec_pwmSetPeriod ch x s⟩
  · exact ⟨_, exec_pwmSetDuty ch x s⟩
  · exact ⟨_, rfl⟩
  · exact ⟨_, rfl⟩
  · exact ⟨_, exec_pwmStart ch x y s⟩
  · exact ⟨_, rfl⟩

/-- Settles O51: out of range, the channel check or the value check behind it returns ERROR at once. -/
theorem pwmRangeErrorsTouchNothing : Obligations.PwmRangeErrorsTouchNothing := by
  intro s ch a b
  refine ⟨fun hch i hi => ?channel, fun ha i hi => ?value⟩
  case channel =>
    obtain ⟨body, hbody⟩ := exec_pwm_eq_channelOp hi s
    rw [hbody]
    exact channelOp_outOfRange body s hch
  case value =>
    have hbad : pwmValueOk a = false := by rw [Bool.eq_false_iff, ne_eq, pwmValueOk_iff]; omega
    simp only [List.mem_cons, List.not_mem_nil, or_false] at hi
    obtain rfl | rfl | rfl | rfl := hi
    · rw [exec_pwmSetPeriod, hbad]
      exact channelOp_valueChecked_false ch _ s
    · rw [exec_pwmSetDuty, hbad]
      exact channelOp_valueChecked_false ch _ s
    · rw [exec_pwmStart, hbad, Bool.false_and]
      exact channelOp_valueChecked_false ch _ s
    · rw [exec_pwmStart, hbad, Bool.and_false]
      exact channelOp_valueChecked_false ch _ s

end Sys2Proof.Machine
end

section
/-! Every step keeps the invariant of the devices, the memory and the marks (State.DeviceInv), changes no parameter and only adds
to the history: said for a chain of effects and for each move of another agent, then for every kind of step. -/

namespace Sys2Proof.Machine

/-! ### The invariant, device by device -/

/-- What State.DeviceInv says of the SPI (10_state.md R31, R35). -/
structure Spi.Ok (x : Spi) : Prop where
  busy : x.busy = x.inflight.isSome
  exclusive : (x.busy && x.done) = false
  unit : ∀ u, x.inflight = some u → unitOf u.width u.value = u.value

/-- What State.DeviceInv says of the I2C (10_state.md R38, 44_i2c.md R291). -/
structure I2c.Ok (x : I2c) : Prop where
  owner : (x.own && x.extBusy) = false
  data : x.data.toNat < 256

theorem State.DeviceInv.spi_ok {s : State} (h : s.DeviceInv) : s.spi.Ok := ⟨h.spiBusy, h.spiExclusive, h.spiUnit⟩
theorem State.DeviceInv.i2c_ok {s : State} (h : s.DeviceInv) : s.i2c.Ok := ⟨h.i2cOwner, h.i2cData⟩

/-- What a step keeps of the devices (the claim of StepKeepsTheDeviceInvariant, for any two states). -/
structure Keeps (s t : State) : Prop where
  inv : s.DeviceInv → t.DeviceInv
  params : t.params = s.params
  history : s.history <+: t.history

theorem Keeps.trans {s t u : State} (h : Keeps s t) (k : Keeps t u) : Keeps s u :=
  ⟨k.inv ∘ h.inv, k.params.trans h.params, h.history.trans k.history⟩

/-- Where neither the trap depth nor a mark changes, the invariant is kept if memory, SPI and I2C are good again. -/
theorem Keeps.of_devices {s t : State} (params : t.params = s.params) (depth : t.trapDepth = s.trapDepth)
    (faulted : t.faulted = s.faulted) (refused : t.refused = s.refused) (history : s.history <+: t.history)
    (mem : s.mem.wf → t.mem.wf) (spi : s.spi.Ok → t.spi.Ok) (i2c : s.i2c.Ok → t.i2c.Ok) : Keeps s t where
  params := params
  history := history
  inv h :=
    have hspi := spi h.spi_ok
    have hi2c := i2c h.i2c_ok
    { params := params ▸ h.params, mem := mem h.mem, spiBusy := hspi.busy, spiExclusive := hspi.exclusive
      spiUnit := hspi.unit, i2cOwner := hi2c.owner, i2cData := hi2c.data, depth := depth ▸ h.depth
      notFaulted := faulted.trans h.notFaulted, notRefused := refused.trans h.notRefused }

/-- A change of other fields than those of the devices' invariant keeps it. -/
theorem Keeps.of_same {s t : State} (params : t.params = s.params) (depth : t.trapDepth = s.trapDepth)
    (faulted : t.faulted = s.faulted) (refused : t.refused = s.refused) (history : s.history <+: t.history)
    (mem : t.mem = s.mem) (spi : t.spi = s.spi) (i2c : t.i2c = s.i2c) : Keeps s t :=
  .of_devices params depth faulted refused history (mem ▸ id) (spi ▸ id) (i2c ▸ id)

theorem Keeps.refl (s : State) : Keeps s s := .of_same rfl rfl rfl rfl List.prefix_rfl rfl rfl rfl

/-- A change of device registers keeps the invariant if it keeps it of SPI and I2C. -/
theorem DevicesOnly.keeps {s t : State} (h : DevicesOnly s t) (spi : s.spi.Ok → t.spi.Ok) (i2c : s.i2c.Ok → t.i2c.Ok) :
    Keeps s t :=
  .of_devices h.params h.trapDepth h.faulted h.refused h.history (h.mem ▸ id) spi i2c

/-! ### Register writes -/

theorem unitOf_unitOf (w : SpiWidth) (v : Word) : unitOf w (unitOf w v) = unitOf w v := by
  simp only [unitOf, BitVec.and_assoc, BitVec.and_self]

/-- A unit put in flight is the low bits of TXDATA, with BUSY 1 and DONE 0. -/
theorem Spi.ok_start (x : Spi) (w : SpiWidth) :
    Spi.Ok { x with inflight := some { width := w, value := unitOf w x.txdata }, done := false, busy := true } where
  busy := rfl
  exclusive := rfl
  unit u hu := by cases hu; exact unitOf_unitOf w x.txdata

theorem writeEffect_spi_ok {r : Reg} {v : Word} {s t : State} (h : writeEffect r v s = .next t) (hs : s.spi.Ok) :
    t.spi.Ok := by
  obtain ht | ⟨-, ⟨-, ht⟩ | ⟨-, ht⟩ | ⟨-, w, -, ht⟩⟩ := writeEffect_spi h <;> rw [ht]
  · exact hs
  · exact ⟨hs.busy, hs.exclusive, hs.unit⟩
  · exact ⟨hs.busy, hs.exclusive, hs.unit⟩
  · exact s.spi.ok_start w

theorem toNat_byte_lt (b : Byte) : (b.setWidth 32).toNat < 256 := by
  rw [BitVec.toNat_setWidth]; omega

theorem writeEffect_i2c_ok {r : Reg} {v : Word} {s t : State} (h : writeEffect r v s = .next t) (hs : s.i2c.Ok) :
    t.i2c.Ok := by
  obtain ht | ⟨-, ⟨-, ht⟩ | ⟨-, ht⟩ | ⟨-, c, -, -, ht⟩⟩ := writeEffect_i2c h <;> rw [ht]
  · exact hs
  · exact ⟨hs.owner, toNat_byte_lt _⟩
  · exact ⟨hs.owner, hs.data⟩
  · exact ⟨hs.owner, hs.data⟩

theorem regWrite_keeps {r : Reg} {v : Word} {s t : State} (h : regWrite r v s = .next t) : Keeps s t :=
  (regWrite_devicesOnly h).keeps (writeEffect_spi_ok (s := s.emit [.regWr r v]) h)
    (writeEffect_i2c_ok (s := s.emit [.regWr r v]) h)

/-! ### Chains of effects -/

theorem Effect.keeps {W : Reg → Word → Prop} {s t : State} (h : Effect W s t) : Keeps s t := by
  induction h with
  | start => exact .refl s
  | draw _ ih => exact ih.trans (.of_same rfl rfl rfl rfl List.prefix_rfl rfl rfl rfl)
  | read r _ ih => exact ih.trans ((regRead_devicesOnly r _).keeps id id)
  | write _ _ hw ih => exact ih.trans (regWrite_keeps hw)
  | move ph l _ ih => exact ih.trans (.of_same rfl rfl rfl rfl List.prefix_rfl rfl rfl rfl)
  | finish res _ ih => exact ih.trans (.of_same rfl rfl rfl rfl List.prefix_rfl rfl rfl rfl)
  | csrRead c _ ih => exact ih.trans (.of_same rfl rfl rfl rfl List.prefix_rfl rfl rfl rfl)
  | csrWrite c v _ ih =>
    rw [csrWrite_eq]
    exact ih.trans (.of_same rfl rfl rfl rfl List.prefix_rfl rfl rfl rfl)
  | setTable n h _ ih => exact ih.trans (.of_same rfl rfl rfl rfl List.prefix_rfl rfl rfl rfl)
  | arm _ ih => exact ih.trans (.of_same rfl rfl rfl rfl List.prefix_rfl rfl rfl rfl)
  | store _ hm ih =>
    obtain ⟨-, hin, rfl⟩ := memWrite_next hm
    exact ih.trans (.of_devices rfl rfl rfl rfl List.prefix_rfl (fun hwf => Memory.store_wf hwf hin) id id)
  | returned n _ ih => exact ih.trans (.of_same rfl rfl rfl rfl (List.prefix_append _ _) rfl rfl rfl)

/-! ### The other agents -/

theorem spiEngine_spi_ok (a : Word) (s : State) (hs : s.spi.Ok) : (spiEngine a s).spi.Ok := by
  obtain ⟨-, h⟩ | ⟨u, -, h⟩ := spiEngine_eq a s <;> rw [h]
  · exact hs
  · exact ⟨rfl, rfl, fun _ hu => by cases hu⟩

/-- Owning the bus ends another controller's hold, and a received byte is a byte. -/
theorem I2c.complete_ok {x : I2c} (row : I2cRow) (d : Word) (hx : x.Ok) : (x.complete row d).Ok where
  owner := by simp only [I2c.complete]; cases row.own.getD x.own <;> simp
  data := by
    cases hrow : row.data with
    | none => simpa [I2c.complete, hrow] using hx.data
    | some v => simpa only [I2c.complete, hrow, Option.map_some, Option.getD_some] using toNat_byte_lt v

theorem i2cEngine_i2c_ok (o : I2cOutcome) (s : State) (hs : s.i2c.Ok) : (i2cEngine o s).i2c.Ok := by
  obtain h | ⟨c, row, -, -, h⟩ := i2cEngine_eq o s <;> rw [h]
  · exact hs
  · exact I2c.complete_ok row _ hs

theorem extBusyChange_i2c_ok (b : Bool) (s : State) (hs : s.i2c.Ok) : (extBusyChange b s).i2c.Ok := by
  unfold extBusyChange
  split
  next => exact hs
  next hown => exact ⟨by simp [hown], hs.data⟩

theorem deviceMove_keeps (m : Move) (s : State) : Keeps s (deviceMove m s) := by
  cases m with
  | raise code => exact .of_same rfl rfl rfl rfl List.prefix_rfl rfl rfl rfl
  | spi a =>
    refine (deviceMove_devicesOnly (by simp)).keeps (spiEngine_spi_ok a s) ?_
    obtain ⟨-, h⟩ | ⟨u, -, h⟩ := spiEngine_eq a s <;> simp only [deviceMove, h] <;> exact id
  | i2c o =>
    refine (deviceMove_devicesOnly (by simp)).keeps ?_ (i2cEngine_i2c_ok o s)
    obtain h | ⟨c, row, -, -, h⟩ := i2cEngine_eq o s <;> simp only [deviceMove, h] <;> exact id
  | extBusy b =>
    refine (deviceMove_devicesOnly (by simp)).keeps ?_ (extBusyChange_i2c_ok b s)
    simp only [deviceMove, extBusyChange]
    split <;> exact id
  | host => exact .refl s
  | detect => exact (deviceMove_devicesOnly (by simp)).keeps id id
  | pads ext => exact (deviceMove_devicesOnly (by simp)).keeps id id
  | timer k => exact (deviceMove_devicesOnly (by simp)).keeps id id

/-! ### Traps and handlers -/

theorem takeTrap_keeps {cause : Word} {s t : State} (h : takeTrap cause s = .next t) : Keeps s t := by
  obtain ⟨-, -, rfl⟩ := takeTrap_next h
  exact
    { params := rfl
      history := List.prefix_append _ _
      inv := fun hs => ⟨hs.params, hs.mem, hs.spiBusy, hs.spiExclusive, hs.spiUnit, hs.i2cOwner, hs.i2cData, le_refl 1,
        hs.notFaulted, hs.notRefused⟩ }

theorem trapReturn_keeps {s t : State} (h : trapReturn s = .next t) : Keeps s t := by
  obtain ⟨f, fs, -, rfl⟩ := resumeAt_next h
  exact
    { params := rfl
      history := List.prefix_rfl
      inv := fun hs => ⟨hs.params, hs.mem, hs.spiBusy, hs.spiExclusive, hs.spiUnit, hs.i2cOwner, hs.i2cData,
        (Nat.sub_le _ _).trans hs.depth, hs.notFaulted, hs.notRefused⟩ }

theorem handlerEnd_keeps {s t : State} (h : handlerEnd s = .next t) : Keeps s t := by
  obtain ⟨f, fs, -, rfl⟩ := handlerEnd_next h
  exact .of_same rfl rfl rfl rfl List.prefix_rfl rfl rfl rfl

/-- Every kind of step keeps the devices' invariant. -/
theorem Stepped.keeps {s t : State} (h : Stepped s t) : Keeps s t := by
  cases h with
  | idle => exact .refl s
  | device m => exact deviceMove_keeps m s
  | trap cause h => exact takeTrap_keeps h
  | effect W h => exact h.keeps
  | call n h => exact .of_same rfl rfl rfl rfl (List.prefix_append _ _) rfl rfl rfl
  | stubEntry => exact .of_same rfl rfl rfl rfl List.prefix_rfl rfl rfl rfl
  | trapReturn _ h => exact trapReturn_keeps h
  | handlerEnd _ h => exact handlerEnd_keeps h

theorem moved_keeps (s : State) : Keeps s s.moved := .of_same rfl rfl rfl rfl List.prefix_rfl rfl rfl rfl

/-- A step takes its move off the agenda and then does one of the things `Stepped` lists. -/
theorem step_keeps {s t : State} (h : step s = .next t) : Keeps s t := (moved_keeps s).trans (step_cases h).2.2.keeps

/-- Settles O58. -/
theorem stepKeepsTheDeviceInvariant : Obligations.StepKeepsTheDeviceInvariant := by
  intro s t hs hstep
  have hk := step_keeps hstep
  exact ⟨hk.inv hs, hk.params, hk.history⟩

end Sys2Proof.Machine
end

section
/-! Every step keeps the invariant of the contexts (State.ContextInv): the stack of contexts is looked at from the running one
down, and each kind of step pushes one context, drops the running one, or changes the running one in place. -/

namespace Sys2Proof.Machine

/-! ### The invariant as a recursion down the contexts -/

/-- The context that stands on top of `outer` was interrupted at the resume point `m` (60_exceptions.md R377). -/
def ResumesAt (m : ResumePoint) (outer : List Frame) : Prop :=
  ∃ g rest, outer = g :: rest ∧ rest.length = m.depth ∧ g.phase = m.phase ∧ g.prog.length = m.left

/-- Below every stub of a stack of contexts stands the interrupted one. -/
def StubsResume (m : ResumePoint) : List Frame → Prop
  | [] => True
  | f :: fs => (f.isStub = true → ResumesAt m fs) ∧ StubsResume m fs

theorem stubsResume_iff {m : ResumePoint} {l : List Frame} :
    StubsResume m l ↔ ∀ inner f outer, l = inner ++ f :: outer → f.isStub = true → ResumesAt m outer := by
  induction l with
  | nil => simp [StubsResume]
  | cons f fs ih =>
    constructor
    · rintro ⟨hf, hfs⟩ inner g outer h hg
      cases inner with
      | nil => obtain ⟨rfl, rfl⟩ := List.cons.inj h; exact hf hg
      | cons _ inner => exact ih.1 hfs inner g outer (List.cons.inj h).2 hg
    · intro h
      exact ⟨h [] f fs rfl, ih.2 fun inner g outer e => h (f :: inner) g outer (congrArg (f :: ·) e)⟩

/-- With no stub among the contexts nothing is asked of a resume point. -/
theorem stubsResume_of_countP {m : ResumePoint} {l : List Frame} (h : l.countP Frame.isStub = 0) : StubsResume m l := by
  rw [List.countP_eq_zero] at h
  exact stubsResume_iff.2 fun inner f outer hl hf => absurd hf (h f (by simp [hl]))

/-- State.ContextInv of a stack `f :: fs`, a trap depth and a resume point. -/
structure StackInv (f : Frame) (fs : List Frame) (depth : Nat) (m : ResumePoint) : Prop where
  outermost : (f :: fs).getLast?.map Frame.kind = some .main
  count : depth = (f :: fs).countP Frame.isStub
  atMostOne : depth ≤ 1
  resume : StubsResume m (f :: fs)

theorem contextInv_iff {s : State} : s.ContextInv ↔ StackInv s.cur s.susp s.trapDepth s.csr.mepc := by
  constructor
  · intro h
    exact ⟨h.outermost, h.depth, h.depthLe, stubsResume_iff.2 h.resume⟩
  · intro h
    exact ⟨h.outermost, h.count, h.atMostOne, stubsResume_iff.1 h.resume⟩

/-! ### What happens to a stack -/

theorem Frame.isStub_of_kind {f g : Frame} (h : g.kind = f.kind) : g.isStub = f.isStub := by
  unfold Frame.isStub; rw [h]

/-- The running context changes but stays what it is: no stub stands above it. -/
theorem StackInv.replace {f g : Frame} {fs : List Frame} {d : Nat} {m : ResumePoint} (h : StackInv f fs d m)
    (hk : g.kind = f.kind) : StackInv g fs d m where
  outermost := by
    have ho := h.outermost
    cases fs with
    | nil => simpa [hk] using ho
    | cons x xs => simpa using ho
  count := by
    rw [h.count, List.countP_cons, List.countP_cons, Frame.isStub_of_kind hk]
  atMostOne := h.atMostOne
  resume := by
    obtain ⟨hf, hfs⟩ := h.resume
    exact ⟨fun hg => hf (Frame.isStub_of_kind hk ▸ hg), hfs⟩

/-- A context that is no stub begins above the running one. -/
theorem StackInv.push {f g : Frame} {fs : List Frame} {d : Nat} {m : ResumePoint} (h : StackInv f fs d m)
    (hg : g.isStub = false) : StackInv g (f :: fs) d m where
  outermost := by simpa using h.outermost
  count := by rw [h.count, List.countP_cons_of_neg (a := g) (by simp [hg])]
  atMostOne := h.atMostOne
  resume := ⟨fun hs => by simp [hg] at hs, h.resume⟩

/-- A trap outside a trap puts the stub above the context it interrupts. -/
theorem StackInv.pushStub {f g : Frame} {fs : List Frame} {m m' : ResumePoint} (h : StackInv f fs 0 m)
    (hg : g.isStub = true) (hm : ResumesAt m' (f :: fs)) : StackInv g (f :: fs) 1 m' where
  outermost := by simpa using h.outermost
  count := by rw [List.countP_cons_of_pos hg, ← h.count]
  atMostOne := le_refl 1
  resume := ⟨fun _ => hm, stubsResume_of_countP h.count.symm⟩

/-- The running context ends and the one below it goes on; one trap level less if it was a stub. -/
theorem StackInv.pop {f g : Frame} {gs : List Frame} {d : Nat} {m : ResumePoint} (h : StackInv f (g :: gs) d m) :
    StackInv g gs (d - if f.isStub then 1 else 0) m where
  outermost := by simpa using h.outermost
  count := by rw [h.count, List.countP_cons (a := f), Nat.add_sub_cancel]
  atMostOne := (Nat.sub_le _ _).trans h.atMostOne
  resume := h.resume.2

/-! ### Every kind of step -/

/-- A chain of effects changes the running context in place, and neither the trap depth nor `mepc`. -/
theorem Effect.contexts {W : Reg → Word → Prop} {s t : State} (h : Effect W s t) :
    t.cur.kind = s.cur.kind ∧ t.susp = s.susp ∧ t.trapDepth = s.trapDepth ∧ t.csr.mepc = s.csr.mepc := by
  induction h with
  | start => exact ⟨rfl, rfl, rfl, rfl⟩
  | write _ _ hw ih =>
    have hd := regWrite_devicesOnly hw
    rw [hd.cur, hd.susp, hd.trapDepth, hd.csr]; exact ih
  | store _ hm ih => obtain ⟨-, -, rfl⟩ := memWrite_next hm; exact ih
  | csrWrite c v _ ih => cases c <;> exact ih
  | draw _ ih | read _ _ ih | move _ _ _ ih | finish _ _ ih | csrRead _ _ ih | setTable _ _ _ ih | arm _ ih
  | returned _ _ ih => exact ih

theorem deviceMove_contexts (m : Move) (s : State) :
    (deviceMove m s).cur.kind = s.cur.kind ∧ (deviceMove m s).susp = s.susp ∧
      (deviceMove m s).trapDepth = s.trapDepth ∧ (deviceMove m s).csr = s.csr := by
  by_cases hm : ∃ code, m = .raise code
  · obtain ⟨code, rfl⟩ := hm; exact ⟨rfl, rfl, rfl, rfl⟩
  · have hd := deviceMove_devicesOnly (m := m) (s := s) fun code hc => hm ⟨code, hc⟩
    rw [hd.cur, hd.susp, hd.trapDepth, hd.csr]; exact ⟨rfl, rfl, rfl, rfl⟩

/-- Trap return finds the interrupted context right below the stub, where `mepc` says. -/
theorem trapReturn_contextInv {s t : State} (hs : s.ContextInv) (hstub : ∃ e, s.cur.kind = .stub e)
    (h : trapReturn s = .next t) : t.ContextInv := by
  rw [contextInv_iff] at hs ⊢
  obtain ⟨e, he⟩ := hstub
  have hcur : s.cur.isStub = true := by rw [Frame.isStub, he]
  obtain ⟨g, rest, hsusp, hdepth, -, -⟩ := hs.resume.1 hcur
  obtain ⟨f, fs, hdrop, rfl⟩ := resumeAt_next h
  dsimp only at hdrop ⊢
  have hnone : s.susp.length - (s.csr.mepc.depth + 1) = 0 := by rw [hsusp, List.length_cons, hdepth, Nat.sub_self]
  rw [hnone, List.drop_zero, hsusp] at hdrop
  obtain ⟨rfl, rfl⟩ := List.cons.inj hdrop
  rw [hsusp] at hs
  simpa [hcur] using hs.pop

theorem handlerEnd_contextInv {s t : State} (hs : s.ContextInv) (hh : ∃ n e, s.cur.kind = .handler n e)
    (h : handlerEnd s = .next t) : t.ContextInv := by
  rw [contextInv_iff] at hs ⊢
  obtain ⟨n, e, he⟩ := hh
  have hcur : s.cur.isStub = false := by rw [Frame.isStub, he]
  obtain ⟨f, fs, hsusp, rfl⟩ := handlerEnd_next h
  rw [hsusp] at hs
  simpa [hcur] using hs.pop

theorem takeTrap_contextInv {cause : Word} {s t : State} (hs : s.ContextInv) (h : takeTrap cause s = .next t) :
    t.ContextInv := by
  rw [contextInv_iff] at hs ⊢
  obtain ⟨-, hz, rfl⟩ := takeTrap_next h
  rw [hz] at hs
  exact hs.pushStub rfl ⟨s.cur, s.susp, rfl, rfl, rfl, rfl⟩

theorem Stepped.contextInv {s t : State} (h : Stepped s t) (hs : s.ContextInv) : t.ContextInv := by
  cases h with
  | idle => exact hs
  | device m =>
    obtain ⟨hk, hsusp, hd, hc⟩ := deviceMove_contexts m s
    rw [contextInv_iff] at hs ⊢
    rw [hsusp, hd, hc]
    exact hs.replace hk
  | trap cause h => exact takeTrap_contextInv hs h
  | effect W h =>
    obtain ⟨hk, hsusp, hd, hc⟩ := h.contexts
    rw [contextInv_iff] at hs ⊢
    rw [hsusp, hd, hc]
    exact hs.replace hk
  | call n h =>
    rw [contextInv_iff] at hs ⊢
    exact StackInv.push (hs.replace rfl) rfl
  | stubEntry =>
    rw [contextInv_iff] at hs ⊢
    exact hs.replace rfl
  | trapReturn hstub h => exact trapReturn_contextInv hs hstub h
  | handlerEnd hh h => exact handlerEnd_contextInv hs hh h

/-- Settles O59: taking the move off the agenda touches no context, and every kind of step keeps the invariant. -/
theorem stepKeepsTheContextInvariant : Obligations.StepKeepsTheContextInvariant := by
  intro s t hs hstep
  have hmoved : s.moved.ContextInv := ⟨hs.outermost, hs.depth, hs.depthLe, hs.resume⟩
  exact (step_cases hstep).2.2.contextInv hmoved

end Sys2Proof.Machine
end

section
/-! The life of a pin's registers (41_gpio.md R189): what a chain of effects, a statement and each agent's move do to GPIO.DIR,
GPIO.OUT, GPIO.INT_EN and the pending flags. -/

namespace Sys2Proof.Machine

/-! ### Register writes -/

/-- The GPIO registers after a register write. -/
theorem writeEffect_gpio {r : Reg} {v : Word} {s t : State} (h : writeEffect r v s = .next t) :
    t.gpio = s.gpio ∨
      (r = .gpioDir ∧ t.gpio = { s.gpio with dir := maskMerge (pinMask s.params) v s.gpio.dir }) ∨
      (r = .gpioOut ∧ t.gpio = { s.gpio with out := maskMerge (pinMask s.params) v s.gpio.out }) ∨
      (r = .gpioIntEn ∧ t.gpio = { s.gpio with intEn := maskMerge (pinMask s.params) v s.gpio.intEn }) ∨
      r = .gpioIntClr ∧ t.gpio = { s.gpio with intPend := s.gpio.intPend &&& ~~~(v &&& pinMask s.params) } := by
  cases r <;> simp only [writeEffect] at h
  case gpioDir => cases h; exact .inr (.inl ⟨rfl, rfl⟩)
  case gpioOut => cases h; exact .inr (.inr (.inl ⟨rfl, rfl⟩))
  case gpioIntEn => cases h; exact .inr (.inr (.inr (.inl ⟨rfl, rfl⟩)))
  case gpioIntClr => cases h; exact .inr (.inr (.inr (.inr ⟨rfl, rfl⟩)))
  case i2cCtrl => obtain ⟨-, c, -, -, rfl⟩ := writeI2cCtrl_next h; exact .inl rfl
  case spiCtrl => obtain ⟨-, w, -, rfl⟩ := writeSpiCtrl_next h; exact .inl rfl
  case pwmCtrl c | pwmPeriod c | pwmDuty c => cases h; exact .inl (State.setPwm_gpio _ _ _)
  case i2cData | i2cPrescale | spiTxdata | spiConfig => split at h <;> cases h; exact .inl rfl
  case mtimeLo | mtimeHi | mtimecmpLo | mtimecmpHi => cases h; exact .inl rfl
  all_goals cases h

/-! ### What a chain of effects does to the GPIO -/

/-- `h` comes from `g` where the register writes that may be made meet `W`: a register changes only where its writes meet it, a
pending flag is never set, it is cleared only by a write of GPIO.INT_CLR that holds its bit, and the detector's last sample
stays. -/
structure GpioBy (W : Reg → Word → Prop) (g h : Gpio) : Prop where
  dir : h.dir ≠ g.dir → ∃ v, W .gpioDir v
  out : h.out ≠ g.out → ∃ v, W .gpioOut v
  intEn : h.intEn ≠ g.intEn → ∃ v, W .gpioIntEn v
  sample : h.inPrev = g.inPrev
  set : ∀ p, g.intPend.getLsbD p = false → h.intPend.getLsbD p = false
  cleared : ∀ p, g.intPend.getLsbD p = true → h.intPend.getLsbD p = false → ∃ v, W .gpioIntClr v ∧ v.getLsbD p = true

section
variable {W : Reg → Word → Prop}

/-- Registers that stay as they are ask nothing. -/
theorem GpioBy.refl (g : Gpio) : GpioBy W g g where
  dir h := absurd rfl h
  out h := absurd rfl h
  intEn h := absurd rfl h
  sample := rfl
  set _ h := h
  cleared _ h k := by rw [h] at k; cases k

theorem GpioBy.trans {g h k : Gpio} (a : GpioBy W g h) (b : GpioBy W h k) : GpioBy W g k where
  dir hne := by
    by_cases hh : h.dir = g.dir
    · exact b.dir (hh ▸ hne)
    · exact a.dir hh
  out hne := by
    by_cases hh : h.out = g.out
    · exact b.out (hh ▸ hne)
    · exact a.out hh
  intEn hne := by
    by_cases hh : h.intEn = g.intEn
    · exact b.intEn (hh ▸ hne)
    · exact a.intEn hh
  sample := b.sample.trans a.sample
  set p hp := b.set p (a.set p hp)
  cleared p hg hk := by
    cases hh : h.intPend.getLsbD p with
    | false => exact a.cleared p hg hh
    | true => exact b.cleared p hh hk

/-- Clearing the flags in a mask clears a flag only where the mask is 1. -/
theorem GpioBy.clear {g : Gpio} {v m : Word} (hw : W .gpioIntClr v) :
    GpioBy W g { g with intPend := g.intPend &&& ~~~(v &&& m) } where
  dir h := absurd rfl h
  out h := absurd rfl h
  intEn h := absurd rfl h
  sample := rfl
  set p hp := by simp [hp]
  cleared p hg hc := by
    have hlt : p < 32 := BitVec.lt_of_getLsbD hg
    simp only [BitVec.getLsbD_and, BitVec.getLsbD_not, hg, hlt, decide_true, Bool.true_and, Bool.not_eq_false',
      Bool.and_eq_true] at hc
    exact ⟨v, hw, hc.1⟩

theorem regWrite_gpioBy {r : Reg} {v : Word} {s t : State} (h : regWrite r v s = .next t) (hw : W r v) :
    GpioBy W s.gpio t.gpio := by
  obtain e | ⟨rfl, e⟩ | ⟨rfl, e⟩ | ⟨rfl, e⟩ | ⟨rfl, e⟩ := writeEffect_gpio (regWrite_next h) <;> rw [e]
  · exact .refl _
  · exact { GpioBy.refl (W := W) s.gpio with dir := fun _ => ⟨v, hw⟩ }
  · exact { GpioBy.refl (W := W) s.gpio with out := fun _ => ⟨v, hw⟩ }
  · exact { GpioBy.refl (W := W) s.gpio with intEn := fun _ => ⟨v, hw⟩ }
  · exact .clear hw

theorem Effect.gpioBy {s t : State} (h : Effect W s t) : GpioBy W s.gpio t.gpio := by
  induction h with
  | start => exact .refl _
  | write _ hw hr ih => exact ih.trans (regWrite_gpioBy hr hw)
  | store _ hm ih => obtain ⟨-, -, rfl⟩ := memWrite_next hm; exact ih
  | csrWrite c v _ ih => rw [csrWrite_eq]; exact ih
  | draw _ ih | read _ _ ih | move _ _ _ ih | finish _ _ ih | csrRead _ _ ih | setTable _ _ _ ih | arm _ ih
  | returned _ _ ih => exact ih

end

/-! ### Every step, by what the machine does next -/

/-- The register writes that what the machine does next may make. -/
def Turn.Writes : Turn → Reg → Word → Prop
  | .instr i => Machine.Writes i
  | .rmw r _ _ => fun q _ => q = r
  | _ => fun _ _ => False

/-- Only the detector and the environment touch the GPIO. -/
theorem deviceMove_gpio_of_ne {m : Move} (s : State) (hd : m ≠ .detect) (hp : ∀ ext, m ≠ .pads ext) :
    (deviceMove m s).gpio = s.gpio := by
  cases m with
  | detect => exact absurd rfl hd
  | pads ext => exact absurd rfl (hp ext)
  | spi a => obtain ⟨-, h⟩ | ⟨u, -, h⟩ := spiEngine_eq a s <;> rw [deviceMove, h]
  | i2c o => obtain h | ⟨c, row, -, -, h⟩ := i2cEngine_eq o s <;> rw [deviceMove, h]
  | extBusy b => simp only [deviceMove, extBusyChange]; split <;> rfl
  | host | timer k | raise code => rfl

/-- No move of another agent changes a register a pin's owner writes; only the detector sets flags, and none clears one. -/
theorem deviceMove_gpio (m : Move) (s : State) :
    (deviceMove m s).gpio.dir = s.gpio.dir ∧ (deviceMove m s).gpio.out = s.gpio.out ∧
      (deviceMove m s).gpio.intEn = s.gpio.intEn ∧
      (m ≠ .detect → (deviceMove m s).gpio.intPend = s.gpio.intPend) ∧
      ∀ p, s.gpio.intPend.getLsbD p = true → (deviceMove m s).gpio.intPend.getLsbD p = true := by
  by_cases hd : m = .detect
  · subst hd
    exact ⟨rfl, rfl, rfl, fun h => absurd rfl h, fun p hp => by simp [deviceMove, edgeDetector, hp]⟩
  by_cases hp : ∃ ext, m = .pads ext
  · obtain ⟨ext, rfl⟩ := hp
    exact ⟨rfl, rfl, rfl, fun _ => rfl, fun _ => id⟩
  · rw [deviceMove_gpio_of_ne s hd fun ext h => hp ⟨ext, h⟩]
    exact ⟨rfl, rfl, rfl, fun _ => rfl, fun _ => id⟩

/-- What the machine does next, the other agents' moves apart, changes the GPIO by its own register writes. -/
theorem act_gpioBy {x : Turn} {s t : State} (h : act x s = .next t) :
    (∃ m, x = .device m ∧ t = deviceMove m s) ∨ GpioBy x.Writes s.gpio t.gpio := by
  cases x with
  | device m => cases h; exact .inl ⟨m, rfl, rfl⟩
  | faulted f => cases h
  | refused r => cases h
  | rejected r => cases h
  | trap cause => obtain ⟨-, -, rfl⟩ := takeTrap_next h; exact .inr (.refl _)
  | instr i =>
    right
    obtain hd | ⟨c, -, -, n, e, hc⟩ := exec_effect i s
    · exact (hd t h).gpioBy
    · rw [show act (.instr i) s = exec i s from rfl, hc] at h
      cases h; exact .refl _
  | poll r bit want =>
    obtain ⟨-, rfl⟩ | ⟨-, rfl⟩ := poll_next (show execPoll r bit want s = .next t from h) <;> exact .inr (.refl _)
  | rmw r c b => exact .inr (Does.rmw none .start (fun _ => rfl) t (show execRmw r c b s = .next t from h)).gpioBy
  | stubEntry => cases h; exact .inr (.refl _)
  | trapReturn => obtain ⟨f, fs, -, rfl⟩ := resumeAt_next (show resumeAt _ _ = .next t from h); exact .inr (.refl _)
  | handlerEnd => obtain ⟨f, fs, -, rfl⟩ := handlerEnd_next h; exact .inr (.refl _)
  | idle => cases h; exact .inr (.refl _)

/-! ### Who writes each register -/

theorem writes_gpioDir {x : Turn} {v : Word} (h : x.Writes .gpioDir v) :
    (∃ v w, ∃ i ∈ [Instr.wrGpioDir v, .gpioSetDirMask v, .gpioSetDir v w], x = .instr i) ∨ ∃ c b, x = .rmw .gpioDir c b := by
  cases x with
  | rmw r c b => cases h; exact .inr ⟨c, b, rfl⟩
  | instr i =>
    left
    cases i
    case wrGpioDir v => exact ⟨v, v, _, by simp, rfl⟩
    case gpioSetDirMask v => exact ⟨v, v, _, by simp, rfl⟩
    case gpioSetDir v w => exact ⟨v, w, _, by simp, rfl⟩
    all_goals nomatch h
  | _ => cases h

theorem writes_gpioOut {x : Turn} {v : Word} (h : x.Writes .gpioOut v) :
    (∃ v w, ∃ i ∈ [Instr.wrGpioOut v, .gpioWrite v, .gpioSetPin v, .gpioClearPin v, .gpioTogglePin v, .gpioWritePin v w,
      .gpioSetAll, .gpioClearAll, .gpioToggleAll], x = .instr i) ∨ ∃ c b, x = .rmw .gpioOut c b := by
  cases x with
  | rmw r c b => cases h; exact .inr ⟨c, b, rfl⟩
  | instr i =>
    left
    cases i
    case gpioWritePin v w => exact ⟨v, w, _, by simp, rfl⟩
    case wrGpioOut v | gpioWrite v | gpioSetPin v | gpioClearPin v | gpioTogglePin v => exact ⟨v, v, _, by simp, rfl⟩
    case gpioSetAll | gpioClearAll | gpioToggleAll => exact ⟨0#32, 0#32, _, by simp, rfl⟩
    all_goals nomatch h
  | _ => cases h

theorem writes_gpioIntEn {x : Turn} {v : Word} (h : x.Writes .gpioIntEn v) :
    (∃ v, ∃ i ∈ [Instr.wrGpioIntEn v, .gpioIntEnable v, .gpioIntDisable v], x = .instr i) ∨
      ∃ c b, x = .rmw .gpioIntEn c b := by
  cases x with
  | rmw r c b => cases h; exact .inr ⟨c, b, rfl⟩
  | instr i =>
    left
    cases i
    case wrGpioIntEn v | gpioIntEnable v | gpioIntDisable v => exact ⟨v, _, by simp, rfl⟩
    all_goals nomatch h
  | _ => cases h

/-- A flag whose bit a write of GPIO.INT_CLR holds: its word, its pin, or a read-modify-write statement. -/
theorem writes_gpioIntClr {x : Turn} {v : Word} {p : Nat} (h : x.Writes .gpioIntClr v) (hp : v.getLsbD p = true) :
    (∃ v, x = .instr (.wrGpioIntClr v) ∧ v.getLsbD p = true) ∨
      (∃ pin, x = .instr (.gpioIntClear pin) ∧ p = pin.toNat) ∨ ∃ c b, x = .rmw .gpioIntClr c b := by
  cases x with
  | rmw r c b => cases h; exact .inr (.inr ⟨c, b, rfl⟩)
  | instr i =>
    cases i
    case wrGpioIntClr w =>
      obtain rfl : v = w := h.2
      exact .inl ⟨v, rfl, hp⟩
    case gpioIntClear pin =>
      obtain rfl : v = pinBit pin := h.2
      simp only [pinBit, getLsbD_bitWord, Bool.and_eq_true, decide_eq_true_eq] at hp
      exact .inr (.inl ⟨pin, rfl, hp.2⟩)
    all_goals nomatch h
  | _ => cases h

/-- Settles O13: another agent's move is read off `deviceMove`, every other step is a chain of its own register writes. -/
theorem gpioRegistersChangeOnlyByTheirInstructions : Obligations.GpioRegistersChangeOnlyByTheirInstructions := by
  intro s t hstep
  rw [step_act] at hstep
  obtain ⟨m, hm, rfl⟩ | h := act_gpioBy hstep
  · obtain ⟨hdir, hout, hen, hset, hkept⟩ := deviceMove_gpio m s.moved
    refine ⟨fun h => absurd hdir h, fun h => absurd hout h, fun h => absurd hen h, fun p h0 h1 => ?_, fun p h1 h0 => ?_⟩
    · by_cases hd : m = .detect
      · rw [hm, hd]
      · rw [hset hd, State.moved_gpio, h0] at h1; cases h1
    · rw [hkept p h1] at h0; cases h0
  · refine ⟨fun hne => ?_, fun hne => ?_, fun hne => ?_, fun p h0 h1 => ?_, fun p h1 h0 => ?_⟩
    · obtain ⟨v, hv⟩ := h.dir hne; exact writes_gpioDir hv
    · obtain ⟨v, hv⟩ := h.out hne; exact writes_gpioOut hv
    · obtain ⟨v, hv⟩ := h.intEn hne; exact writes_gpioIntEn hv
    · rw [h.set p h0] at h1; cases h1
    · obtain ⟨v, hv, hp⟩ := h.cleared p h1 h0; exact writes_gpioIntClr hv hp

end Sys2Proof.Machine
end

section
/-! Decoding what the encoder writes (30_encoding.md R100): one lemma per format says which reading of the tables the bytes get,
then each instruction is its own row. -/

namespace Sys2Proof

/-! ### Bytes and words -/

theorem wordOfBytes_extract (v : Word) :
    wordOfBytes (v.extractLsb' 0 8) (v.extractLsb' 8 8) (v.extractLsb' 16 8) (v.extractLsb' 24 8) = v :=
  Machine.wordOfBytes_byteOf v

/-- The six bytes of a register access are read by the key's row: any word with a write, none with a read. -/
theorem decodeBytes_mmioBytes (p : Params) (w : Window) {key : Nat} {v : Word} (hkey : key < 512)
    (hdata : keyIsWrite key = true ∨ v = 0#32) :
    decodeBytes p (.mmio w) (mmioBytes key v) = decodeKey w key v := by
  have hbytes : (BitVec.ofNat 8 key).toNat + 256 * (BitVec.ofNat 8 (key / 256)).toNat = key := by
    simp only [BitVec.toNat_ofNat]; omega
  have hok : (keyIsWrite key || v == 0#32) = true := by simpa using hdata
  simp only [decodeBytes, decodeMmio, mmioBytes, bytesOfWord, hbytes, wordOfBytes_extract, hok, if_true]
  rw [if_neg (by omega)]

/-- The four bytes of a command word are read as that word. -/
theorem decodeBytes_bytesOfWord (p : Params) (port : Port) (w : Word) :
    decodeBytes p (.cmd port) (bytesOfWord w) = decodeCommand p port w := by
  simp only [decodeBytes, decodeCmd, bytesOfWord, wordOfBytes_extract]

/-- The seventeen bytes of an operation are read by the code's row, where the operands it does not take are zero. -/
theorem decodeBytes_opBytes (p : Params) {code : Byte} {a b c d : Word} {i : Instr} {arity : Nat}
    (hcode : decodeCode code.toNat a b c d = some (i, arity))
    (hzero : ([a, b, c, d].drop arity).all (· == 0#32) = true) :
    decodeBytes p .op (opBytes code a b c d) = .ok i := by
  simp only [decodeBytes, decodeOp, opBytes, bytesOfWord, List.cons_append, List.nil_append, wordOfBytes_extract, hcode,
    hzero, if_true]

/-- A buffer operand that has an operand value is read back from it (notes/assumptions/12.md). -/
theorem bufferOfWord_wordOfBuffer {b : Option Word} (h : bufferOperandOk b = true) : bufferOfWord (wordOfBuffer b) = b := by
  cases b with
  | none => rfl
  | some a =>
    have ha : a ≠ 0#32 := by rintro rfl; simp [bufferOperandOk] at h
    simp [bufferOfWord, wordOfBuffer, ha]

/-! ### Command words -/

/-- The words of 30_encoding.md R103 are distinct, so each is read as its own command. -/
theorem decodeCommand_spi {p : Params} (hp : p.Valid) :
    decodeCommand p .spi p.spiStart8 = .ok .spiStart8 ∧ decodeCommand p .spi p.spiStart16 = .ok .spiStart16 ∧
      decodeCommand p .spi p.spiStart32 = .ok .spiStart32 := by
  have hd := hp.spiWords
  simp only [List.nodup_cons, List.mem_cons, List.not_mem_nil, or_false, not_or] at hd
  obtain ⟨-, ⟨h1, h2⟩, h3, -⟩ := hd
  simp [decodeCommand, Ne.symm h1, Ne.symm h2, Ne.symm h3]

/-- The words of 30_encoding.md R107 are distinct, so each is read as its own command. -/
theorem decodeCommand_i2c {p : Params} (hp : p.Valid) :
    decodeCommand p .i2c p.i2cStart = .ok .i2cStart ∧ decodeCommand p .i2c p.i2cRestart = .ok .i2cRestart ∧
      decodeCommand p .i2c p.i2cWrite = .ok .i2cWrite ∧ decodeCommand p .i2c p.i2cReadAck = .ok .i2cReadAck ∧
      decodeCommand p .i2c p.i2cReadNack = .ok .i2cReadNack ∧ decodeCommand p .i2c p.i2cStop = .ok .i2cStop := by
  have hd := hp.i2cWords
  simp only [List.nodup_cons, List.mem_cons, List.not_mem_nil, or_false, not_or] at hd
  obtain ⟨⟨a1, a2, a3, a4, a5⟩, ⟨b1, b2, b3, b4⟩, ⟨c1, c2, c3⟩, ⟨d1, d2⟩, e1, -⟩ := hd
  refine ⟨?_, ?_, ?_, ?_, ?_, ?_⟩ <;> simp [decodeCommand, *, Ne.symm]

/-! ### Every instruction -/

theorem length_encode (p : Params) (i : Instr) : (encode p i).2.length = (encode p i).1.size := by
  cases i <;> rfl

/-- The multi-unit transfers are the operations with buffer operands. -/
theorem decode_encode_xfern {p : Params} {code : Byte} {x y : Option Word} {n : Word}
    {op : Option Word → Option Word → Word → Instr}
    (hcode : ∀ a b c d, decodeCode code.toNat a b c d = some (op (bufferOfWord a) (bufferOfWord b) c, 3))
    (h : (bufferOperandOk x && bufferOperandOk y) = true) :
    decodeBytes p .op (opBytes code (wordOfBuffer x) (wordOfBuffer y) n 0#32) = .ok (op x y n) := by
  obtain ⟨hx, hy⟩ := Bool.and_eq_true_iff.1 h
  refine decodeBytes_opBytes p ?_ (arity := 3) rfl
  rw [hcode, bufferOfWord_wordOfBuffer hx, bufferOfWord_wordOfBuffer hy]

theorem decode_encode {p : Params} (hp : p.Valid) (i : Instr) (hi : i.wellFormed = true) :
    decodeBytes p (encode p i).1 (encode p i).2 = .ok i := by
  obtain ⟨s8, s16, s32⟩ := decodeCommand_spi hp
  obtain ⟨start, restart, write, readAck, readNack, stop⟩ := decodeCommand_i2c hp
  cases i
  case spiStart8 => exact (decodeBytes_bytesOfWord p .spi _).trans s8
  case spiStart16 => exact (decodeBytes_bytesOfWord p .spi _).trans s16
  case spiStart32 => exact (decodeBytes_bytesOfWord p .spi _).trans s32
  case i2cStart => exact (decodeBytes_bytesOfWord p .i2c _).trans start
  case i2cRestart => exact (decodeBytes_bytesOfWord p .i2c _).trans restart
  case i2cWrite => exact (decodeBytes_bytesOfWord p .i2c _).trans write
  case i2cReadAck => exact (decodeBytes_bytesOfWord p .i2c _).trans readAck
  case i2cReadNack => exact (decodeBytes_bytesOfWord p .i2c _).trans readNack
  case i2cStop => exact (decodeBytes_bytesOfWord p .i2c _).trans stop
  case spiXfern8 => exact decode_encode_xfern (fun _ _ _ _ => rfl) hi
  case spiXfern16 => exact decode_encode_xfern (fun _ _ _ _ => rfl) hi
  case spiXfern32 => exact decode_encode_xfern (fun _ _ _ _ => rfl) hi
  all_goals first
    | exact decodeBytes_mmioBytes p _ (by omega) (.inl rfl)
    | exact decodeBytes_mmioBytes p _ (by omega) (.inr rfl)
    | exact decodeBytes_opBytes p rfl rfl

/-- Settles O54. -/
theorem decodeOfEncodeIsTheInstruction : Obligations.DecodeOfEncodeIsTheInstruction :=
  fun p i hp hi => ⟨length_encode p i, decode_encode hp i hi⟩

end Sys2Proof
end

section
/-! GPIO register accesses and the environment (41_gpio.md R160 to R169): the accesses bit by bit, and which pad events a change of
the GPIO state logs. -/

namespace Sys2Proof.Machine

/-! ### Pads -/

/-- The pad of pin `k` where an output is looped back. -/
def padOf (p : Params) (g : Gpio) (k : Nat) : Bool :=
  if g.dir.getLsbD k = p.dirOutIs1 then g.out.getLsbD k else g.ext.getLsbD k

theorem getLsbD_padLevels_draw {s : State} {k : Nat} (hk : k < 32) :
    (padLevels s.params s.gpio s.draws.head).getLsbD k = (decide (k ≤ s.params.pinMax) && s.padLevel k) := by
  rw [getLsbD_padLevels, getLsbD_outputPins _ _ _ hk]
  simp only [hk, decide_true, Bool.true_and, State.padLevel, beq_iff_eq]
  cases s.params.loopback <;> rfl

theorem mem_pinEvents {pins : Word} {f : Nat → Event} {e : Event} :
    e ∈ pinEvents pins f ↔ ∃ k, k < 32 ∧ pins.getLsbD k = true ∧ e = f k := by
  simp only [pinEvents, List.mem_map, List.mem_filter, List.mem_range, and_assoc, eq_comm (a := e)]

/-- Whether the pad of pin `k` is a free value (41_gpio.md R166). -/
theorem getLsbD_drawnPads {p : Params} {g : Gpio} {k : Nat} (hk : k < 32) :
    (drawnPads p g).getLsbD k = (!p.loopback && (g.dir.getLsbD k == p.dirOutIs1) && decide (k ≤ p.pinMax)) := by
  unfold drawnPads
  cases p.loopback <;> simp [hk, getElem_outputPins]

/-- A pad event stands for exactly the implemented pins whose pad changed and was free neither before nor after
(notes/assumptions/15.md). -/
theorem mem_padEvents {p : Params} {g h : Gpio} {e : Event} :
    e ∈ padEvents p g h ↔ ∃ k, k < 32 ∧ k ≤ p.pinMax ∧
      (p.loopback = true ∨ g.dir.getLsbD k ≠ p.dirOutIs1 ∧ h.dir.getLsbD k ≠ p.dirOutIs1) ∧
      padOf p g k ≠ padOf p h k ∧ e = .padChange k (padOf p h k) := by
  rw [padEvents, mem_pinEvents]
  refine exists_congr fun k => and_congr_right fun hk => ?_
  simp only [BitVec.getLsbD_and, BitVec.getLsbD_xor, BitVec.getLsbD_not, BitVec.getLsbD_or, hk, decide_true, Bool.true_and,
    getLsbD_padLevels, getLsbD_drawnPads hk, getLsbD_outputPins _ _ _ hk, padOf, beq_iff_eq]
  by_cases hpin : k ≤ p.pinMax <;> cases p.loopback <;> by_cases hg : g.dir.getLsbD k = p.dirOutIs1 <;>
    by_cases hh : h.dir.getLsbD k = p.dirOutIs1 <;> simp [hpin, hg, hh]

/-- A change of directions alone moves the pads of looped-back pins whose output and external levels differ. -/
theorem mem_padEvents_dir {p : Params} {g : Gpio} {d : Word} {e : Event} :
    e ∈ padEvents p g { g with dir := d } ↔ p.loopback = true ∧ ∃ k, k < 32 ∧ k ≤ p.pinMax ∧
      g.dir.getLsbD k ≠ d.getLsbD k ∧ g.out.getLsbD k ≠ g.ext.getLsbD k ∧
      e = .padChange k (if d.getLsbD k = p.dirOutIs1 then g.out.getLsbD k else g.ext.getLsbD k) := by
  rw [mem_padEvents, ← exists_and_left]
  refine exists_congr fun k => ?_
  rw [and_left_comm (a := p.loopback = true), and_left_comm (a := p.loopback = true)]
  refine and_congr_right fun _ => and_congr_right fun _ => ?_
  have hpads : (p.loopback = true ∨ g.dir.getLsbD k ≠ p.dirOutIs1 ∧ d.getLsbD k ≠ p.dirOutIs1) ∧
      padOf p g k ≠ padOf p { g with dir := d } k ↔
      p.loopback = true ∧ g.dir.getLsbD k ≠ d.getLsbD k ∧ g.out.getLsbD k ≠ g.ext.getLsbD k := by
    simp only [padOf]
    cases p.loopback <;> cases p.dirOutIs1 <;> cases g.dir.getLsbD k <;> cases d.getLsbD k <;> simp [eq_comm]
  rw [← and_assoc, hpads, and_assoc, and_assoc]
  rfl

/-- A change of output levels alone moves the pads of looped-back outputs whose level changed. -/
theorem mem_padEvents_out {p : Params} {g : Gpio} {o : Word} {e : Event} :
    e ∈ padEvents p g { g with out := o } ↔ p.loopback = true ∧ ∃ k, k < 32 ∧ k ≤ p.pinMax ∧
      g.dir.getLsbD k = p.dirOutIs1 ∧ g.out.getLsbD k ≠ o.getLsbD k ∧ e = .padChange k (o.getLsbD k) := by
  rw [mem_padEvents, ← exists_and_left]
  refine exists_congr fun k => ?_
  simp only [padOf]
  by_cases hd : g.dir.getLsbD k = p.dirOutIs1 <;> simp [hd]
  tauto

/-- A change of external levels alone moves the pads of the inputs whose level changed. -/
theorem mem_padEvents_ext {p : Params} {g : Gpio} {x : Word} {e : Event} :
    e ∈ padEvents p g { g with ext := x } ↔ ∃ k, k < 32 ∧ k ≤ p.pinMax ∧ g.dir.getLsbD k ≠ p.dirOutIs1 ∧
      g.ext.getLsbD k ≠ x.getLsbD k ∧ e = .padChange k (x.getLsbD k) := by
  rw [mem_padEvents]
  refine exists_congr fun k => ?_
  simp only [padOf]
  by_cases hd : g.dir.getLsbD k = p.dirOutIs1 <;> simp [hd]

/-! ### Accesses -/

/-- A read of a register with implemented bits: the register in those, a free value above. -/
theorem getLsbD_implemented (p : Params) (w d : Word) {k : Nat} (hk : k < 32) :
    (maskMerge (pinMask p) w d).getLsbD k = if k ≤ p.pinMax then w.getLsbD k else d.getLsbD k := by
  simp [hk]

theorem getLsbD_readValue_gpioIn (s : State) {k : Nat} (hk : k < 32) :
    (readValue s s.draws.head .gpioIn).getLsbD k = if k ≤ s.params.pinMax then s.padLevel k else s.draws.head.getLsbD k := by
  rw [readValue, getLsbD_implemented _ _ _ hk, getLsbD_padLevels_draw hk]
  split
  next h => simp [h]
  next => rfl

section
variable {s : State} {v x : Word} (res : Option Word)

theorem writeStatement_gpioDir (h : maskMerge (pinMask s.params) v s.gpio.dir = x) :
    writeStatement .gpioDir v res s = .next (({ s with
      gpio := { s.gpio with dir := x }
      history := s.history ++ [.regWr .gpioDir v] ++ padEvents s.params s.gpio { s.gpio with dir := x } } :
        State).finish res) := by
  subst h; rfl

theorem writeStatement_gpioOut (h : maskMerge (pinMask s.params) v s.gpio.out = x) :
    writeStatement .gpioOut v res s = .next (({ s with
      gpio := { s.gpio with out := x }
      history := s.history ++ [.regWr .gpioOut v] ++ padEvents s.params s.gpio { s.gpio with out := x } } :
        State).finish res) := by
  subst h; rfl

theorem writeStatement_gpioIntEn (h : maskMerge (pinMask s.params) v s.gpio.intEn = x) :
    writeStatement .gpioIntEn v res s = .next ((({ s with gpio := { s.gpio with intEn := x } } : State).emit
      [.regWr .gpioIntEn v]).finish res) := by
  subst h; rfl

end

theorem writeStatement_gpioIntClr (v : Word) (res : Option Word) (s : State) :
    writeStatement .gpioIntClr v res s = .next ((({ s with
      gpio := { s.gpio with intPend := s.gpio.intPend &&& ~~~(v &&& pinMask s.params) } } : State).emit
        [.regWr .gpioIntClr v]).finish res) := rfl

/-! ### The statements on accesses -/

theorem decode_gpio_readOnly (p : Params) (w : Word) :
    decodeBytes p (.mmio .gpio) (mmioBytes 0x108 w) = .error .badAccess ∧
      decodeBytes p (.mmio .gpio) (mmioBytes 0x114 w) = .error .badAccess :=
  ⟨decodeBytes_mmioBytes p .gpio (by decide) (.inl rfl), decodeBytes_mmioBytes p .gpio (by decide) (.inl rfl)⟩

/-- Settles O1: each row is one read of GPIO.IN, GPIO.INT_PEND or GPIO.DIR. -/
theorem gpioBitmaskReadsReturnImplementedBits : Obligations.GpioBitmaskReadsReturnImplementedBits := by
  intro s row hrow
  have hro := decode_gpio_readOnly s.params
  have hin : ∀ k, k < 32 → _ := fun k => getLsbD_readValue_gpioIn s (k := k)
  have hpend : ∀ k, k < 32 → _ := fun k => getLsbD_implemented s.params s.gpio.intPend s.draws.head (k := k)
  have hdir : ∀ k, k < 32 → _ := fun k => getLsbD_implemented s.params s.gpio.dir s.draws.head (k := k)
  simp only [List.mem_cons, List.not_mem_nil, or_false] at hrow
  obtain rfl | rfl | rfl | rfl | rfl | rfl := hrow
  · exact ⟨_, hin, readStatement_eq .gpioIn s, fun w => (hro w).1, fun w => (hro w).2⟩
  · exact ⟨_, hin, readStatement_eq .gpioIn s, fun w => (hro w).1, fun w => (hro w).2⟩
  · exact ⟨_, hpend, readStatement_eq .gpioIntPend s, fun w => (hro w).1, fun w => (hro w).2⟩
  · exact ⟨_, hpend, readStatement_eq .gpioIntPend s, fun w => (hro w).1, fun w => (hro w).2⟩
  · exact ⟨_, hdir, readStatement_eq .gpioDir s, fun w => (hro w).1, fun w => (hro w).2⟩
  · exact ⟨_, hdir, readStatement_eq .gpioDir s, fun w => (hro w).1, fun w => (hro w).2⟩

/-- Settles O2: both rows are the one write of GPIO.DIR. -/
theorem gpioDirWritesReplaceImplementedBits : Obligations.GpioDirWritesReplaceImplementedBits := by
  intro s v i hi
  have hexec : exec i s = writeStatement .gpioDir v none s := by
    simp only [List.mem_cons, List.not_mem_nil, or_false] at hi
    obtain rfl | rfl := hi <;> rfl
  exact ⟨_, fun k => getLsbD_implemented s.params v s.gpio.dir, hexec.trans (writeStatement_gpioDir none rfl),
    fun e => mem_padEvents_dir⟩

/-- Settles O3: a read of GPIO.OUT, and the one write behind the four rows. -/
theorem gpioOutAccessIsImmediate : Obligations.GpioOutAccessIsImmediate := by
  intro s x
  refine ⟨⟨_, fun k => getLsbD_implemented s.params s.gpio.out s.draws.head, readStatement_eq .gpioOut s⟩,
    fun row hrow => ?_⟩
  have hexec : exec row.1 s = writeStatement .gpioOut row.2 none s := by
    simp only [List.mem_cons, List.not_mem_nil, or_false] at hrow
    obtain rfl | rfl | rfl | rfl := hrow <;> rfl
  exact ⟨_, fun k => getLsbD_implemented s.params row.2 s.gpio.out, hexec.trans (writeStatement_gpioOut none rfl),
    fun e => mem_padEvents_out⟩

/-- The request (41_gpio.md R169): a word is not zero exactly when one of its bits is 1. -/
theorem gpioIrq_iff {s : State} : gpioIrq s = true ↔ ∃ k, k < 32 ∧ k ≤ s.params.pinMax ∧
    s.gpio.intPend.getLsbD k = true ∧ s.gpio.intEn.getLsbD k = true := by
  have hne (w : Word) : w ≠ 0#32 ↔ ∃ k, k < 32 ∧ w.getLsbD k = true := by
    constructor
    · intro h
      by_contra hno
      refine h (BitVec.eq_of_getLsbD_eq fun k hk => ?_)
      rw [BitVec.getLsbD_zero, Bool.eq_false_iff]
      exact fun hw => hno ⟨k, hk, hw⟩
    · rintro ⟨k, -, hw⟩ rfl
      rw [BitVec.getLsbD_zero] at hw
      cases hw
  rw [gpioIrq, bne_iff_ne, hne]
  refine exists_congr fun k => and_congr_right fun hk => ?_
  simp only [BitVec.getLsbD_and, getLsbD_pinMask, hk, decide_true, Bool.true_and, Bool.and_eq_true, decide_eq_true_eq]
  exact and_comm

/-- Settles O4. -/
theorem gpioInterruptRegistersFormTheRequest : Obligations.GpioInterruptRegistersFormTheRequest := by
  intro s x
  refine ⟨gpioIrq_iff, ⟨_, fun k => getLsbD_implemented s.params s.gpio.intEn s.draws.head, readStatement_eq .gpioIntEn s⟩,
    ⟨_, fun k => getLsbD_implemented s.params x s.gpio.intEn, writeStatement_gpioIntEn none rfl⟩,
    readStatement_eq .gpioIntClr s, ⟨_, fun k hk => ?_, writeStatement_gpioIntClr x none s⟩⟩
  simp [hk, Bool.and_comm]

/-! ### The environment and the edge detector -/

/-- Settles O11: each move is another agent's step. -/
theorem environmentMovesChangeTheirOwnState : Obligations.EnvironmentMovesChangeTheirOwnState := by
  intro s ms hf hr
  refine ⟨fun ext hm => ⟨_, step_device hf hr hm (by simp), fun e => mem_padEvents_ext⟩, fun b hm => ?_⟩
  have hstep : step s = .next (extBusyChange b { s with moves := ms }) := step_device hf hr hm (by simp)
  refine ⟨fun hown => ?_, fun hown => ?_⟩ <;> rw [hstep, extBusyChange]
  · rw [if_neg (by simp [hown])]
  · rw [if_pos hown]

/-- The flags the detector latches: the rising pins, with GPIO_PEND_GATED those enabled. -/
theorem getLsbD_latchedPins (p : Params) (g : Gpio) (d : Word) {k : Nat} (hk : k < 32) :
    (latchedPins p g d).getLsbD k = ((padLevels p g d).getLsbD k && !g.inPrev.getLsbD k &&
      (!p.pendGated || g.intEn.getLsbD k)) := by
  simp only [latchedPins, risingPins]
  cases p.pendGated <;> simp [hk]

/-- One step of the detector (41_gpio.md R168). -/
theorem step_detect {s : State} {ms : List Move} (hf : s.faulted = none) (hr : s.refused = none)
    (hm : s.moves = .detect :: ms) :
    ∃ (pend prev : Word) (es : List Event),
      step s = .next { s with
        gpio := { s.gpio with intPend := pend, inPrev := prev }
        history := s.history ++ es
        moves := ms
        draws := s.draws.next } ∧
      (∀ p, p < 32 → prev.getLsbD p = (decide (p ≤ s.params.pinMax) && s.padLevel p)) ∧
      (∀ p, p < 32 → pend.getLsbD p = (s.gpio.intPend.getLsbD p ||
        (decide (p ≤ s.params.pinMax) && (s.padLevel p && !s.gpio.inPrev.getLsbD p &&
          (!s.params.pendGated || s.gpio.intEn.getLsbD p))))) ∧
      ∀ e, e ∈ es ↔ ∃ p, p < 32 ∧ p ≤ s.params.pinMax ∧ s.padLevel p = true ∧ s.gpio.inPrev.getLsbD p = false ∧
        e = .edge p := by
  refine ⟨_, _, _, step_device hf hr hm (by simp), fun p hp => getLsbD_padLevels_draw hp, fun p hp => ?_, fun e => ?_⟩
  · show (s.gpio.intPend ||| latchedPins s.params s.gpio s.draws.head).getLsbD p = _
    rw [BitVec.getLsbD_or, getLsbD_latchedPins _ _ _ hp, getLsbD_padLevels_draw hp]
    simp only [Bool.and_assoc]
  · rw [mem_pinEvents]
    refine exists_congr fun k => and_congr_right fun hk => ?_
    simp only [risingPins, BitVec.getLsbD_and, BitVec.getLsbD_not, hk, decide_true, Bool.true_and]
    rw [show (padLevels s.params s.gpio s.draws.head).getLsbD k = _ from getLsbD_padLevels_draw hk]
    simp [and_assoc]

/-- The host's own turn is no other agent's move. -/
theorem hostTurn_ne_device (s : State) (m : Move) : hostTurn s ≠ .device m := by
  have hdecode : ∀ e, decodeTurn e ≠ .device m := fun e => by cases e <;> simp [decodeTurn]
  have hrequest : ∀ q, requestTurn s.params q ≠ .device m := fun q => by
    cases q <;> simp [requestTurn, hdecode]
  have hempty : emptyTurn s.cur ≠ .device m := by
    unfold emptyTurn
    split
    · simp
    · split <;> simp
    · simp
  unfold hostTurn contextTurn
  split
  · simp
  · split
    · simp
    · split
      · exact hrequest _
      · exact hempty

/-- The agent that moves is the one the agenda names. -/
theorem nextMove_of_turn_device {s : State} {m : Move} (h : turn s = .device m) : nextMove s = m := by
  obtain ⟨f, k⟩ | ⟨f, k⟩ | ⟨-, -, k | k⟩ := turn_cases s <;> rw [k] at h
  · cases h
  · cases h
  · exact absurd h (hostTurn_ne_device s m)
  · cases h; rfl

/-- Only the detector's move takes a sample. -/
theorem step_inPrev {s t : State} (hm : nextMove s ≠ .detect) (h : step s = .next t) : t.gpio.inPrev = s.gpio.inPrev := by
  rw [step_act] at h
  obtain ⟨m, hturn, rfl⟩ | hg := act_gpioBy h
  · have hne : m ≠ .detect := nextMove_of_turn_device hturn ▸ hm
    by_cases hp : ∃ ext, m = .pads ext
    · obtain ⟨ext, rfl⟩ := hp; rfl
    · rw [deviceMove_gpio_of_ne _ hne fun ext e => hp ⟨ext, e⟩]; rfl
  · exact hg.sample

/-- No move of a run changes a parameter or takes an event back. -/
theorem Runs.params_history {sched : Nat → Move} {run : Nat → State} (h : Runs sched run) {n m : Nat} (hnm : n ≤ m) :
    (run m).params = (run n).params ∧ (run n).history <+: (run m).history := by
  induction m, hnm using Nat.le_induction with
  | base => exact ⟨rfl, List.prefix_rfl⟩
  | succ m _ ih =>
    have hk := step_keeps (h m)
    exact ⟨hk.params.trans ih.1, ih.2.trans hk.history⟩

/-- Until the detector's next move a run keeps its last sample. -/
theorem Runs.inPrev {sched : Nat → Move} {run : Nat → State} (h : Runs sched run) {n m : Nat} (hnm : n ≤ m)
    (hno : ∀ k, n ≤ k → k < m → sched k ≠ .detect) : (run m).gpio.inPrev = (run n).gpio.inPrev := by
  induction m, hnm using Nat.le_induction with
  | base => rfl
  | succ m hm ih =>
    rw [step_inPrev (s := (run m).toMove (sched m)) (hno m hm (Nat.lt_succ_self m)) (h m)]
    exact ih fun k hk hlt => hno k hk (Nat.lt_succ_of_lt hlt)

/-- The detector's first move from a point of a fair run on. -/
theorem DetectorFair.first {sched : Nat → Move} (h : DetectorFair sched) (n : Nat) :
    ∃ m, n ≤ m ∧ sched m = .detect ∧ ∀ k, n ≤ k → k < m → sched k ≠ .detect := by
  have hspec := Nat.find_spec (h n)
  refine ⟨Nat.find (h n), hspec.1, hspec.2, fun k hk hlt hd => ?_⟩
  exact Nat.find_min (h n) hlt ⟨hk, hd⟩

/-- Settles O12: one step of the detector, and the detector's first move of a fair run after the level has become steady. -/
theorem edgeDetectorLatchesRisingEdges : Obligations.EdgeDetectorLatchesRisingEdges := by
  refine ⟨fun s ms hf hr hm => step_detect hf hr hm, fun sched run hrun hfair n p level hp hpin hlevel => ?_⟩
  obtain ⟨m, hnm, hdetect, hfirst⟩ := hfair.first n
  have hstep := hrun m
  rw [hdetect] at hstep
  obtain ⟨hf, hr, -⟩ := step_cases hstep
  obtain ⟨pend, prev, es, hnext, hprev, -, hes⟩ := step_detect (s := (run m).toMove .detect) hf hr rfl
  rw [hstep, Host.Outcome.next.injEq] at hnext
  have hpin' : p ≤ (run m).params.pinMax := by rwa [(hrun.params_history hnm).1]
  have hpad : ((run m).toMove .detect).padLevel p = level := hlevel m hnm
  refine ⟨m + 1, by omega, ?_, fun hl hlow => ?_⟩
  · rw [hnext, ← hpad]
    simpa [hpin'] using hprev p hp
  · rw [hnext]
    refine List.mem_append_right _ ((hes _).2 ⟨p, hp, hpin', hpad.trans hl, ?_, rfl⟩)
    rw [State.toMove_gpio, hrun.inPrev hnm hfirst, hlow]

end Sys2Proof.Machine
end

section
/-! The pin operations of GPIO (41_gpio.md R171 to R188): a read-modify-write of one bit of one register, or one access. -/

namespace Sys2Proof.Machine

/-! ### One-bit operands -/

/-- What an operand of `bits` bits counts as (notes/assumptions/26.md): itself where it fits, else a free value. -/
def State.operand (s : State) (bits : Nat) (x : Word) : Word :=
  if x.toNat < 2 ^ bits then x else s.draws.head &&& onesWord bits

/-- The state after an operand of `bits` bits is looked at: a draw is taken where it does not fit. -/
def State.afterOperand (s : State) (bits : Nat) (x : Word) : State :=
  if x.toNat < 2 ^ bits then s else s.takeDraw

theorem withOperand_eq (bits : Nat) (x : Word) (k : Word → State → Result) (s : State) :
    withOperand bits x k s = k (s.operand bits x) (s.afterOperand bits x) := by
  unfold withOperand State.operand State.afterOperand
  split <;> rfl

theorem State.operand_of_fits {s : State} {bits : Nat} {x : Word} (h : x.toNat < 2 ^ bits) : s.operand bits x = x :=
  if_pos h

theorem State.afterOperand_of_fits {s : State} {bits : Nat} {x : Word} (h : x.toNat < 2 ^ bits) :
    s.afterOperand bits x = s := if_pos h

theorem State.afterOperand_draws_of_fits {s : State} {bits : Nat} {x : Word} (h : x.toNat < 2 ^ bits) :
    (s.afterOperand bits x).draws = s.draws := by
  rw [State.afterOperand_of_fits h]

theorem State.operand_lt (s : State) {bits : Nat} (hb : bits ≤ 32) (x : Word) : (s.operand bits x).toNat < 2 ^ bits := by
  unfold State.operand
  split
  next h => exact h
  next =>
    have hones : (onesWord bits).toNat = 2 ^ bits - 1 := by
      have hpow : 2 ^ bits ≤ 2 ^ 32 := Nat.pow_le_pow_right (by omega) hb
      have hpos := Nat.two_pow_pos bits
      rw [onesWord, BitVec.toNat_ofNat, Nat.mod_eq_of_lt (by omega)]
    rw [BitVec.toNat_and, hones, Nat.and_two_pow_sub_one_eq_mod]
    exact Nat.mod_lt _ (Nat.two_pow_pos bits)

/-- Only the draws can differ after an operand is looked at. -/
theorem State.afterOperand_eq (s : State) (bits : Nat) (x : Word) :
    s.afterOperand bits x = { s with draws := (s.afterOperand bits x).draws } := by
  unfold State.afterOperand
  split <;> rfl

/-- A value of one bit is 0 or 1. -/
theorem getLsbD_of_lt_two {y : Word} (h : y.toNat < 2) (k : Nat) :
    y.getLsbD k = (decide (y = 1#32) && decide (k = 0)) := by
  obtain rfl | rfl : y = 0#32 ∨ y = 1#32 := by
    have : y.toNat = 0 ∨ y.toNat = 1 := by omega
    exact this.imp (fun h => BitVec.eq_of_toNat_eq h) fun h => BitVec.eq_of_toNat_eq h
  · simp
  · simp [BitVec.getLsbD_one]

/-! ### One bit of a word -/

section
variable {v : Word} {pin : Word} {k : Nat}

theorem getLsbD_pinBit (hk : k < 32) : (pinBit pin).getLsbD k = decide (k = pin.toNat) := by
  simp [pinBit, hk]

theorem getLsbD_or_pinBit (hk : k < 32) :
    (v ||| pinBit pin).getLsbD k = if k = pin.toNat then true else v.getLsbD k := by
  rw [BitVec.getLsbD_or, getLsbD_pinBit hk]
  by_cases h : k = pin.toNat <;> simp [h]

theorem getLsbD_andNot_pinBit (hk : k < 32) :
    (v &&& ~~~(pinBit pin)).getLsbD k = if k = pin.toNat then false else v.getLsbD k := by
  rw [BitVec.getLsbD_and, BitVec.getLsbD_not, getLsbD_pinBit hk]
  by_cases h : k = pin.toNat <;> simp [h, hk]

theorem getLsbD_xor_pinBit (hk : k < 32) :
    (v ^^^ pinBit pin).getLsbD k = if k = pin.toNat then !v.getLsbD k else v.getLsbD k := by
  rw [BitVec.getLsbD_xor, getLsbD_pinBit hk]
  by_cases h : k = pin.toNat <;> simp [h]

/-- GPIO.WRITE_PIN makes the pin's bit the level (41_gpio.md R178). -/
theorem getLsbD_levelBits {y : Word} (hy : y.toNat < 2) (hk : k < 32) :
    ((v &&& ~~~(pinBit pin)) ||| levelBits pin y).getLsbD k =
      if k = pin.toNat then decide (y = 1#32) else v.getLsbD k := by
  have hlevel : (levelBits pin y).getLsbD k = (decide (k = pin.toNat) && decide (y = 1#32)) := by
    rw [levelBits, BitVec.getLsbD_shiftLeft, getLsbD_of_lt_two hy, Bool.eq_iff_iff]
    simp only [Bool.and_eq_true, decide_eq_true_eq, Bool.not_eq_true', decide_eq_false_iff_not]
    constructor
    · rintro ⟨⟨-, hge⟩, hy, hle⟩
      exact ⟨by omega, hy⟩
    · rintro ⟨he, hy⟩
      exact ⟨⟨hk, by omega⟩, hy, by omega⟩
  rw [BitVec.getLsbD_or, getLsbD_andNot_pinBit hk, hlevel]
  by_cases h : k = pin.toNat <;> simp [h]

/-- GPIO.SET_DIR makes the pin's bit the one of the wanted direction (41_gpio.md R171). -/
theorem getLsbD_dirBits {p : Params} {y : Word} (hk : k < 32) :
    ((v &&& ~~~(pinBit pin)) ||| dirBits p pin y).getLsbD k =
      if k = pin.toNat then (decide (y = 1#32) == p.dirOutIs1) else v.getLsbD k := by
  have hdir : (dirBits p pin y).getLsbD k = (decide (k = pin.toNat) && (decide (y = 1#32) == p.dirOutIs1)) := by
    unfold dirBits
    by_cases h : decide (y = 1#32) = p.dirOutIs1 <;> simp [h, getLsbD_pinBit hk]
  rw [BitVec.getLsbD_or, getLsbD_andNot_pinBit hk, hdir]
  by_cases h : k = pin.toNat <;> simp [h]

end

/-- A word read with one implemented bit changed, written back, changes that bit of the register. -/
theorem maskMerge_eq_setBit {p : Params} {reg d v w : Word} {pin : Nat} {b : Bool} (hpin : pin ≤ p.pinMax)
    (hv : v = maskMerge (pinMask p) reg d) (hw : ∀ k, k < 32 → w.getLsbD k = if k = pin then b else v.getLsbD k) :
    maskMerge (pinMask p) w reg = setBit reg pin b := by
  refine BitVec.eq_of_getLsbD_eq fun k hk => ?_
  rw [getLsbD_implemented p w reg hk, getLsbD_setBit, hw k hk, hv, getLsbD_implemented p reg d hk]
  by_cases h : k = pin
  · simp [h, hpin, h ▸ hk]
  · by_cases hm : k ≤ p.pinMax <;> simp [h, hm]

/-! ### Micro-steps of a pin operation -/

theorem pinOp_inRange {pin : Word} {s : State} (body : State → Result) (h : pin.toNat ≤ s.params.pinMax) :
    pinOp pin body s = body s := if_pos (pinOk_iff.2 h)

/-- The state after the read of a read-modify-write, the word read kept (40_register_access.md R143). -/
def State.kept (s : State) (r : Reg) (v : Word) : State :=
  ((s.emit [.regRd r v]).takeDraw).goTo .rmwWrite { Locals.none with v := v }

theorem rmw_idle_eq_kept {r : Reg} {s : State} (f : Word → Word) (res : Option Word) (h : s.cur.phase = .idle) :
    rmw r f res s = .next (s.kept r (readValue s s.draws.head r)) := rmw_of_idle f res h

theorem rmw_kept {r : Reg} {v : Word} (f : Word → Word) (res : Option Word) (s : State) :
    rmw r f res (s.kept r v) = writeStatement r (f v) res (s.kept r v) := rfl

theorem rmwOperand_of_idle {r : Reg} {s : State} (bits : Nat) (x : Word) (f : Word → Word → Word) (res : Option Word)
    (h : s.cur.phase = .idle) : rmwOperand r bits x f res s = .next (s.kept r (readValue s s.draws.head r)) := by
  rw [rmwOperand, h]
  exact rmw_idle_eq_kept _ _ h

theorem rmwOperand_kept {r : Reg} {v : Word} (bits : Nat) (x : Word) (f : Word → Word → Word) (res : Option Word)
    (s : State) :
    rmwOperand r bits x f res (s.kept r v) =
      writeStatement r (f ((s.kept r v).operand bits x) v) res ((s.kept r v).afterOperand bits x) := by
  have h : rmwOperand r bits x f res (s.kept r v) = withOperand bits x (fun y => rmw r (f y) res) (s.kept r v) := rfl
  rw [h, withOperand_eq, State.afterOperand_eq]
  rfl

/-! ### One access -/

theorem exec_gpioReadPin {s : State} {pin : Word} (hmax : s.params.pinMax ≤ 31) (hpin : pin.toNat ≤ s.params.pinMax) :
    exec (.gpioReadPin pin) s = .next (((s.emit [.regRd .gpioIn (readValue s s.draws.head .gpioIn)]).takeDraw).finish
      (some (if s.padLevel pin.toNat then 1#32 else 0#32))) := by
  have hpad := getLsbD_readValue_gpioIn s (k := pin.toNat) (by omega)
  rw [if_pos hpin] at hpad
  rw [show exec (.gpioReadPin pin) s = pinOp pin _ s from rfl, pinOp_inRange _ hpin, readThrough]
  simp only [regRead_eq, hpad, boolWord]

theorem exec_gpioGetDir {s : State} {pin : Word} (hmax : s.params.pinMax ≤ 31) (hpin : pin.toNat ≤ s.params.pinMax) :
    exec (.gpioGetDir pin) s = .next (((s.emit [.regRd .gpioDir (readValue s s.draws.head .gpioDir)]).takeDraw).finish
      (some (if s.gpio.dir.getLsbD pin.toNat = s.params.dirOutIs1 then 1#32 else 0#32))) := by
  have hdir : (readValue s s.draws.head .gpioDir).getLsbD pin.toNat = s.gpio.dir.getLsbD pin.toNat := by
    rw [readValue, getLsbD_implemented _ _ _ (by omega), if_pos hpin]
  rw [show exec (.gpioGetDir pin) s = pinOp pin _ s from rfl, pinOp_inRange _ hpin, readThrough]
  simp only [regRead_eq, hdir, boolWord, beq_iff_eq]

theorem exec_gpioIntClear {s : State} {pin : Word} (hpin : pin.toNat ≤ s.params.pinMax) :
    exec (.gpioIntClear pin) s = .next ((({ s with gpio := { s.gpio with
      intPend := setBit s.gpio.intPend pin.toNat false } } : State).emit
        [.regWr .gpioIntClr (1#32 <<< pin.toNat)]).finish (some 0#32)) := by
  have hflag : s.gpio.intPend &&& ~~~(pinBit pin &&& pinMask s.params) = setBit s.gpio.intPend pin.toNat false := by
    refine BitVec.eq_of_getLsbD_eq fun k hk => ?_
    rw [getLsbD_setBit, BitVec.getLsbD_and, BitVec.getLsbD_not, BitVec.getLsbD_and, getLsbD_pinBit hk]
    by_cases h : k = pin.toNat
    · subst h; simp [hk, hpin]
    · simp [hk, h]
  rw [show exec (.gpioIntClear pin) s = pinOp pin _ s from rfl, pinOp_inRange _ hpin, writeStatement_gpioIntClr, hflag]
  rfl

/-- Settles O8. -/
theorem gpioPinOneAccessOperations : Obligations.GpioPinOneAccessOperations := by
  intro s pin hmax hpin
  exact ⟨⟨_, exec_gpioGetDir hmax hpin⟩, ⟨_, exec_gpioReadPin hmax hpin⟩, exec_gpioIntClear hpin⟩

/-! ### GPIO.INT_EN, GPIO.DIR and all pins of GPIO.OUT -/

/-- Settles O7: both operations are the read-modify-write of GPIO.INT_EN. -/
theorem gpioInterruptEnableChangesOneBit : Obligations.GpioInterruptEnableChangesOneBit := by
  intro s pin hidle hmax hpin row hrow
  obtain ⟨f, hexec, hbits⟩ : ∃ f : Word → Word,
      (∀ t : State, t.params = s.params → exec row.1 t = rmw .gpioIntEn f (some Config.ok) t) ∧
      ∀ v k, k < 32 → (f v).getLsbD k = if k = pin.toNat then row.2 else v.getLsbD k := by
    simp only [List.mem_cons, List.not_mem_nil, or_false] at hrow
    obtain rfl | rfl := hrow
    · exact ⟨_, fun t ht => pinOp_inRange _ (ht ▸ hpin), fun v k hk => getLsbD_or_pinBit hk⟩
    · exact ⟨_, fun t ht => pinOp_inRange _ (ht ▸ hpin), fun v k hk => getLsbD_andNot_pinBit hk⟩
  refine ⟨_, _, _, _, fun k => getLsbD_implemented s.params s.gpio.intEn s.draws.head, hbits _,
    (hexec s rfl).trans (rmw_idle_eq_kept f _ hidle), rfl, ?_, rfl⟩
  rw [hexec (s.kept .gpioIntEn _) rfl, rmw_kept]
  exact writeStatement_gpioIntEn _ (maskMerge_eq_setBit (reg := s.gpio.intEn) hpin rfl (hbits _))

/-- Settles O6: the read-modify-write of GPIO.DIR, whose write looks at the direction. -/
theorem gpioSetDirChangesOneDirection : Obligations.GpioSetDirChangesOneDirection := by
  intro s pin dir hidle hmax hpin
  obtain ⟨v, hv⟩ : ∃ v, v = readValue s s.draws.head .gpioDir := ⟨_, rfl⟩
  obtain ⟨y, hy⟩ : ∃ y, y = (s.kept .gpioDir v).operand 1 dir := ⟨_, rfl⟩
  have hbits : ∀ k, k < 32 → ((v &&& ~~~(pinBit pin)) ||| dirBits s.params pin y).getLsbD k =
      if k = pin.toNat then (decide (y = 1#32) == s.params.dirOutIs1) else v.getLsbD k := fun k hk => getLsbD_dirBits hk
  have hread : exec (.gpioSetDir pin dir) s = .next (s.kept .gpioDir v) :=
    (pinOp_inRange _ hpin).trans (hv ▸ rmwOperand_of_idle _ _ _ _ hidle)
  have hwrite : exec (.gpioSetDir pin dir) (s.kept .gpioDir v) = writeStatement .gpioDir
      ((v &&& ~~~(pinBit pin)) ||| dirBits s.params pin y) (some Config.ok)
      { s.kept .gpioDir v with draws := ((s.kept .gpioDir v).afterOperand 1 dir).draws } := by
    rw [← State.afterOperand_eq, hy]
    exact (pinOp_inRange (s := s.kept .gpioDir v) _ hpin).trans (rmwOperand_kept _ _ _ _ _)
  have hstored := writeStatement_gpioDir
    (s := { s.kept .gpioDir v with draws := ((s.kept .gpioDir v).afterOperand 1 dir).draws }) (some Config.ok)
    (maskMerge_eq_setBit (reg := s.gpio.dir) hpin hv hbits)
  refine ⟨decide (y = 1#32), v, _, _, _, fun h => ?_, ?_, hbits, hread, rfl, hwrite.trans hstored, rfl, fun h => ?_⟩
  · rw [hy, State.operand_of_fits h]
  · rw [hv]; exact fun k => getLsbD_implemented s.params s.gpio.dir s.draws.head
  · exact State.afterOperand_draws_of_fits h

/-! ### Output pins -/

/-- A pin that is a looped-back output reads as its output level. -/
theorem readPin_output {s : State} {pin : Word} {b : Bool} (hmax : s.params.pinMax ≤ 31)
    (hpin : pin.toNat ≤ s.params.pinMax) (hloop : s.params.loopback = true)
    (hdir : s.gpio.dir.getLsbD pin.toNat = s.params.dirOutIs1) (hout : s.gpio.out.getLsbD pin.toNat = b) :
    ∃ r, exec (.gpioReadPin pin) s = .next r ∧ r.cur.result = some (if b then 1#32 else 0#32) := by
  have hpad : s.padLevel pin.toNat = b := by rw [State.padLevel, if_pos hdir, if_pos hloop, hout]
  exact ⟨_, exec_gpioReadPin hmax hpin, by rw [hpad]; rfl⟩

/-- The two micro-steps of an operation that makes the pin's bit of GPIO.OUT `b`, its write at the draws `d`, and the pad read
after it. -/
theorem pinOutput_run {i : Instr} {s : State} {pin v w : Word} {b : Bool} {d : Draws} (hmax : s.params.pinMax ≤ 31)
    (hpin : pin.toNat ≤ s.params.pinMax) (hv : v = readValue s s.draws.head .gpioOut)
    (hw : ∀ k, k < 32 → w.getLsbD k = if k = pin.toNat then b else v.getLsbD k)
    (hread : exec i s = .next (s.kept .gpioOut v))
    (hwrite : exec i (s.kept .gpioOut v) =
      writeStatement .gpioOut w (some Config.ok) { s.kept .gpioOut v with draws := d }) :
    ∃ (u t : State), exec i s = .next u ∧
      u = ((s.emit [.regRd .gpioOut v]).takeDraw).goTo .rmwWrite { Locals.none with v := v } ∧
      exec i u = .next t ∧
      t = ({ u with
        gpio := { s.gpio with out := setBit s.gpio.out pin.toNat b }
        history := u.history ++ [.regWr .gpioOut w] ++
          padEvents s.params s.gpio { s.gpio with out := setBit s.gpio.out pin.toNat b }
        draws := t.draws } : State).finish (some 0#32) ∧
      t.draws = d ∧
      (s.params.loopback = true → s.gpio.dir.getLsbD pin.toNat = s.params.dirOutIs1 →
        ∃ r, exec (.gpioReadPin pin) t = .next r ∧ r.cur.result = some (if b then 1#32 else 0#32)) := by
  have hstored := writeStatement_gpioOut (s := { s.kept .gpioOut v with draws := d }) (some Config.ok)
    (maskMerge_eq_setBit (reg := s.gpio.out) hpin hv hw)
  have hbit : (setBit s.gpio.out pin.toNat b).getLsbD pin.toNat = b := by
    rw [getLsbD_setBit, if_pos ⟨rfl, by omega⟩]
  exact ⟨_, _, hread, rfl, hwrite.trans hstored, rfl, rfl, fun hloop hdir => readPin_output hmax hpin hloop hdir hbit⟩

/-- Settles O5: the rows differ in the word they make of the one read, and only WRITE_PIN looks at its operand. -/
theorem gpioPinOutputOperationsChangeOneBit : Obligations.GpioPinOutputOperationsChangeOneBit := by
  intro s pin level hidle hmax hpin
  obtain ⟨v, hv⟩ : ∃ v, v = readValue s s.draws.head .gpioOut := ⟨_, rfl⟩
  obtain ⟨u, hu⟩ : ∃ u, u = s.kept .gpioOut v := ⟨_, rfl⟩
  refine ⟨decide (u.operand 1 level = 1#32), fun row hrow => ?_⟩
  have hin (t : State) (body : State → Result) (ht : t.params = s.params) : pinOp pin body t = body t :=
    pinOp_inRange body (ht ▸ hpin)
  have hread (f : Word → Word) : pinOp pin (rmw .gpioOut f (some Config.ok)) s = .next (s.kept .gpioOut v) :=
    (hin s _ rfl).trans (hv ▸ rmw_idle_eq_kept _ _ hidle)
  have hwrite (f : Word → Word) : pinOp pin (rmw .gpioOut f (some Config.ok)) (s.kept .gpioOut v) =
      writeStatement .gpioOut (f v) (some Config.ok) (s.kept .gpioOut v) :=
    (hin (s.kept .gpioOut v) _ rfl).trans (rmw_kept _ _ _)
  obtain ⟨w, d, hw, hread, hwrite, hd⟩ : ∃ (w : Word) (d : Draws),
      (∀ k, k < 32 → w.getLsbD k = if k = pin.toNat then row.2 else v.getLsbD k) ∧ exec row.1 s = .next u ∧
      exec row.1 u = writeStatement .gpioOut w (some Config.ok) { u with draws := d } ∧
      (level.toNat < 2 → d = u.draws) := by
    subst hu
    simp only [List.mem_cons, List.not_mem_nil, or_false] at hrow
    obtain rfl | rfl | rfl | rfl := hrow
    · exact ⟨_, _, fun k => getLsbD_or_pinBit, hread _, hwrite _, fun _ => rfl⟩
    · exact ⟨_, _, fun k => getLsbD_andNot_pinBit, hread _, hwrite _, fun _ => rfl⟩
    · refine ⟨_, _, fun k hk => ?_, hread _, hwrite _, fun _ => rfl⟩
      rw [getLsbD_xor_pinBit hk]
      refine ite_congr rfl (fun he => ?_) fun _ => rfl
      rw [he, hv, readValue, getLsbD_implemented _ _ _ (by omega), if_pos hpin]
    · refine ⟨(v &&& ~~~(pinBit pin)) ||| levelBits pin ((s.kept .gpioOut v).operand 1 level),
        ((s.kept .gpioOut v).afterOperand 1 level).draws, fun k hk => ?_,
        (hin s _ rfl).trans (hv ▸ rmwOperand_of_idle _ _ _ _ hidle), ?_,
        fun h => State.afterOperand_draws_of_fits h⟩
      · rw [getLsbD_levelBits (State.operand_lt _ (by omega) level) hk]
        refine ite_congr rfl (fun _ => ?_) fun _ => rfl
        split
        next h => rw [State.operand_of_fits h]
        next => rfl
      · rw [← State.afterOperand_eq]
        exact (hin (s.kept .gpioOut v) _ rfl).trans (rmwOperand_kept _ _ _ _ _)
  subst hu
  obtain ⟨u, t, h1, h2, h3, h4, h5, h6⟩ := pinOutput_run hmax hpin hv hw hread hwrite
  refine ⟨v, w, u, t, ?_, hw, h1, h2, h3, h4, fun h => ?_, h6⟩
  · rw [hv]; exact fun k => getLsbD_implemented s.params s.gpio.out s.draws.head
  · rw [h5, hd h, h2]; rfl

/-- The complement of what was read flips every implemented bit (41_gpio.md R182). -/
theorem getLsbD_maskMerge_not {p : Params} {reg d : Word} {k : Nat} (hk : k < 32) :
    (maskMerge (pinMask p) (~~~(maskMerge (pinMask p) reg d)) reg).getLsbD k =
      if k ≤ p.pinMax then !reg.getLsbD k else reg.getLsbD k := by
  rw [getLsbD_implemented _ _ _ hk, BitVec.getLsbD_not, getLsbD_implemented _ _ _ hk]
  by_cases h : k ≤ p.pinMax <;> simp [h, hk]

/-- Settles O10: the read-modify-write of all pins. -/
theorem gpioToggleAllFlipsEveryPin : Obligations.GpioToggleAllFlipsEveryPin := by
  intro s hidle
  exact ⟨decodeBytes_opBytes s.params rfl rfl, _, _, _, fun k hk => getLsbD_maskMerge_not hk,
    rmw_idle_eq_kept (r := .gpioOut) _ _ hidle, rfl, writeStatement_gpioOut (s := s.kept .gpioOut _) none rfl⟩

end Sys2Proof.Machine
end

section
/-! The dispatcher's operations (42_irq_dispatcher.md): the table, the control registers, use before IRQ.INIT. -/

namespace Sys2Proof.Machine

/-! ### Use before and after IRQ.INIT -/

theorem afterInit_armed {s : State} (body : State → Result) (h : s.disp.state = .armed) : afterInit body s = body s :=
  if_neg (by simp [h])

/-- Settles O18. -/
theorem irqUseBeforeInitStops : Obligations.IrqUseBeforeInitStops := by
  intro s a b hd
  refine ⟨fun i hi => ?_, fun hidle => ?_⟩
  · simp only [List.mem_cons, List.not_mem_nil, or_false] at hi
    obtain rfl | rfl | rfl | rfl := hi <;> exact if_pos hd
  · rw [show exec (.irqDispatch a) s = execIrqDispatch a s from rfl, execIrqDispatch, hidle]
    exact if_pos hd

/-! ### IRQ.INIT -/

/-- Where IRQ.INIT stands after it has cleared `k` entries (42_irq_dispatcher.md R200). -/
def irqInitPhase (k : Nat) : Phase := if k = 0 then .idle else if k < 16 then .irqClear else .irqVector

/-- IRQ.INIT's state after `k` micro-steps, as far as its own later micro-steps and the claim look at it. -/
structure Clearing (s : State) (k : Nat) (u : State) : Prop where
  /-- Nothing but the table and the running context's place has changed. -/
  frame : u = { s with disp := { s.disp with table := u.disp.table }, cur := { s.cur with phase := u.cur.phase, loc := u.cur.loc } }
  table : ∀ n, n < 16 → u.handlerOf n = if n < k then 0#32 else s.handlerOf n
  phase : u.cur.phase = irqInitPhase k
  idx : k ≠ 0 → u.cur.loc.idx = k

theorem Clearing.zero {s : State} (h : s.cur.phase = .idle) : Clearing s 0 s where
  frame := rfl
  table n _ := by rw [if_neg (by omega)]
  phase := h
  idx h := absurd rfl h

/-- The next micro-step clears the next entry. -/
theorem Clearing.exec {s u : State} {k : Nat} (h : Clearing s k u) (hk : k < 16) (entry : Word) :
    exec (.irqInit entry) u = clearEntry k u := by
  have hp := h.phase
  rw [show Machine.exec (.irqInit entry) u = execIrqInit entry u from rfl, execIrqInit]
  by_cases h0 : k = 0
  · subst h0
    rw [hp, irqInitPhase, if_pos rfl]
  · rw [irqInitPhase, if_neg h0, if_pos hk] at hp
    rw [hp, h.idx h0]

theorem Clearing.succ {s u : State} {k : Nat} (h : Clearing s k u) (hk : k < 16) :
    ∃ t, clearEntry k u = .next t ∧ Clearing s (k + 1) t := by
  refine ⟨_, rfl, ?_, fun n hn => ?_, ?_, fun _ => rfl⟩
  · rw [h.frame]; rfl
  · have hb := handlerOf_bind u k n 0#32 hk
    rw [h.table n hn] at hb
    refine hb.trans ?_
    by_cases hnk : n = k
    · rw [if_pos hnk, if_pos (by omega)]
    · rw [if_neg hnk]
      exact if_congr (by omega) rfl rfl
  · simp only [State.goTo_cur, irqInitPhase, Nat.add_eq_zero_iff, one_ne_zero, and_false, if_false]
    rfl

theorem perform_irqInit {s : State} (entry : Word) (hidle : s.cur.phase = .idle) {k : Nat} (hk : k ≤ 16) :
    ∃ u, perform (.irqInit entry) k s = .next u ∧ Clearing s k u := by
  induction k with
  | zero => exact ⟨s, rfl, .zero hidle⟩
  | succ k ih =>
    obtain ⟨u, hu, hc⟩ := ih (by omega)
    obtain ⟨t, ht, hct⟩ := hc.succ (by omega)
    exact ⟨t, by rw [perform_succ, hu, andThen_next, hc.exec (by omega), ht], hct⟩

/-- A table all of whose entries read zero is the cleared one. -/
theorem table_eq_of_handlerOf {u : State} (h : ∀ n, n < 16 → u.handlerOf n = 0#32) :
    u.disp.table = Vector.replicate 16 0#32 := by
  refine Vector.ext fun n hn => ?_
  have hz := h n hn
  rw [State.handlerOf, List.getD_eq_getElem _ _ (by simpa using hn), Vector.getElem_toList] at hz
  rw [hz, Vector.getElem_replicate]

/-- Settles O14. -/
theorem irqInitZeroesTableThenArms : Obligations.IrqInitZeroesTableThenArms := by
  intro s entry hidle
  refine ⟨?first, fun k hk => ?entries, ?last⟩
  case first =>
    obtain ⟨u, hu, -⟩ := (Clearing.zero hidle).succ (by omega)
    exact ⟨u, ((Clearing.zero hidle).exec (by omega) entry).trans hu⟩
  case entries =>
    obtain ⟨u, hu, hc⟩ := perform_irqInit entry hidle hk
    exact ⟨u, hu, by rw [hc.frame], by rw [hc.frame], by rw [hc.frame], hc.table⟩
  case last =>
    obtain ⟨u, hu, hc⟩ := perform_irqInit entry hidle (le_refl 16)
    have htable := table_eq_of_handlerOf fun n hn => (hc.table n hn).trans (if_pos hn)
    have hlast : exec (.irqInit entry) u = .next (({ u with
        disp := { state := .armed, table := u.disp.table }
        csr := { u.csr with mtvec := entry } } : State).finish none) := by
      rw [show exec (.irqInit entry) u = execIrqInit entry u from rfl, execIrqInit, hc.phase]
      rfl
    rw [perform_succ, hu, andThen_next, hlast, htable, hc.frame]
    rfl

/-! ### IRQ.REGISTER and IRQ.DISPATCH -/

/-- Settles O15. -/
theorem irqRegisterBindsOneEntry : Obligations.IrqRegisterBindsOneEntry := by
  intro s n h hd
  have hexec : exec (.irqRegister n h) s = if n.toNat < Config.irqMax then .next ((s.bind n.toNat h).finish (some Config.ok))
      else returnNow (some Config.error) s := if_neg (by simp [hd])
  refine ⟨fun hn => ⟨s.bind n.toNat h, hexec.trans (if_pos hn), rfl, fun m hm => handlerOf_bind s n.toNat m h hn⟩,
    fun hn => hexec.trans (if_neg (Nat.not_lt.2 hn))⟩

theorem causeCode_eq (cause : Word) : causeCode cause = cause.toNat % 2 ^ 31 := BitVec.toNat_setWidth _ _

/-- IRQ.DISPATCH begins, armed (42_irq_dispatcher.md R202). -/
theorem exec_irqDispatch_idle {s : State} (cause : Word) (hd : s.disp.state = .armed) (hidle : s.cur.phase = .idle) :
    exec (.irqDispatch cause) s =
      if cause.getLsbD 31 = false ∨ 16 ≤ cause.toNat % 2 ^ 31 ∨ s.handlerOf (cause.toNat % 2 ^ 31) = 0#32 then
        .next (s.finish none)
      else .next (callHandler (cause.toNat % 2 ^ 31) (s.handlerOf (cause.toNat % 2 ^ 31)) s) := by
  rw [show exec (.irqDispatch cause) s = execIrqDispatch cause s from rfl, execIrqDispatch, hidle]
  simp only [dispatch, hd, causeCode_eq, causeIsIrq, Config.irqMax, returnNow, reduceCtorEq, if_false]
  by_cases h1 : cause.getLsbD 31 = false
  · rw [if_pos (by rw [h1]; rfl), if_pos (.inl h1)]
  · rw [if_neg (by simpa using h1)]
    by_cases h2 : 16 ≤ cause.toNat % 2 ^ 31
    · rw [if_pos h2, if_pos (.inr (.inl h2))]
    · rw [if_neg h2]
      exact if_congr ((or_iff_right h2).symm.trans (or_iff_right h1).symm) rfl rfl

/-- Settles O16. -/
theorem irqDispatchCallsTheBoundHandler : Obligations.IrqDispatchCallsTheBoundHandler := by
  intro s cause hd
  refine ⟨fun hidle => ⟨fun h => ?silent, fun h1 h2 h3 => ?call⟩, fun hret => ?returned⟩
  case silent => rw [exec_irqDispatch_idle cause hd hidle, if_pos h]
  case call =>
    refine ⟨_, (exec_irqDispatch_idle cause hd hidle).trans (if_neg ?_), rfl, rfl, rfl, rfl⟩
    rintro (h | h | h)
    · rw [h1] at h; cases h
    · omega
    · exact h3 h
  case returned =>
    rw [show exec (.irqDispatch cause) s = execIrqDispatch cause s from rfl, execIrqDispatch, hret]

/-! ### The enable and disable operations -/

/-- A control register set under a mask, in three micro-steps (40_register_access.md R146, 42_irq_dispatcher.md R204). -/
theorem csrSet_run {c : CsrName} {mask : Word} {s : State} (hidle : s.cur.phase = .idle) :
    ∃ u v : State, csrSet c mask s = .next u ∧ csrSet c mask u = .next v ∧ u.csr = s.csr ∧
      v.csr = (csrWrite c (csrValue s s.draws.head c ||| mask) s).csr ∧ v.cur.prog = s.cur.prog ∧
      v.cur.result = s.cur.result ∧
      csrSet c mask v = .next (({ s with
        csr := (csrWrite c (csrValue s s.draws.head c ||| mask) s).csr, draws := s.draws.next } : State).finish none) := by
  refine ⟨(csrRead c s).2.goTo .csrWrite { Locals.none with v := (csrRead c s).1 }, _, by rw [csrSet, hidle], rfl, rfl, ?_⟩
  rw [csrWrite_eq]
  cases c <;> exact ⟨rfl, rfl, rfl, rfl⟩

/-- A control register cleared under a mask, in two micro-steps (40_register_access.md R146). -/
theorem csrClear_run {c : CsrName} {mask : Word} {s : State} (hidle : s.cur.phase = .idle) :
    ∃ u : State, csrClear c mask s = .next u ∧ u.csr = s.csr ∧
      csrClear c mask u = .next (({ s with
        csr := (csrWrite c (csrValue s s.draws.head c &&& ~~~mask) s).csr, draws := s.draws.next } : State).finish none) := by
  refine ⟨(csrRead c s).2.goTo .csrWrite { Locals.none with v := (csrRead c s).1 }, by rw [csrClear, hidle], rfl, ?_⟩
  cases c <;> rfl

/-- Setting bit 3 of `mstatus` sets MIE and keeps MPIE. -/
theorem csrWrite_mstatus_set (s : State) (d : Word) :
    (csrWrite .mstatus (csrValue s d .mstatus ||| bitWord Config.mieBit) s).csr = { s.csr with mstatusMIE := true } := by
  simp [csrWrite, csrValue, Config.mieBit, Config.mpieBit]

/-- Clearing bit 3 of `mstatus` clears MIE and keeps MPIE. -/
theorem csrWrite_mstatus_clear (s : State) (d : Word) :
    (csrWrite .mstatus (csrValue s d .mstatus &&& ~~~(bitWord Config.mieBit)) s).csr = { s.csr with mstatusMIE := false } := by
  simp [csrWrite, csrValue, Config.mieBit, Config.mpieBit]

/-- Settles O19: each operation is CsrSet of its bit. -/
theorem irqEnablesTakeEffectBeforeReturn : Obligations.IrqEnablesTakeEffectBeforeReturn := by
  intro s hidle hd row hrow
  obtain ⟨c, mask, hexec, hcsr⟩ : ∃ (c : CsrName) (mask : Word),
      (∀ t : State, t.disp.state = .armed → exec row.1 t = csrSet c mask t) ∧
      (csrWrite c (csrValue s s.draws.head c ||| mask) s).csr = row.2 := by
    simp only [List.mem_cons, List.not_mem_nil, or_false] at hrow
    obtain rfl | rfl | rfl := hrow
    · exact ⟨_, _, fun t ht => afterInit_armed _ ht, csrWrite_mstatus_set s _⟩
    · exact ⟨.mie, _, fun t ht => afterInit_armed _ ht, rfl⟩
    · exact ⟨.mie, _, fun t ht => afterInit_armed _ ht, rfl⟩
  obtain ⟨u, v, hu, hv, hucsr, hvcsr, hprog, hres, hret⟩ := csrSet_run (c := c) (mask := mask) hidle
  have hdisp {a b : State} (h : csrSet c mask a = .next b) (ha : a.disp.state = .armed) : b.disp.state = .armed := by
    obtain ⟨-, rfl⟩ | ⟨-, rfl⟩ | ⟨-, rfl⟩ := csrSet_next h
    · exact ha
    · rw [csrWrite_eq]; exact ha
    · exact ha
  have hdu := hdisp hu hd
  refine ⟨u, v, (hexec s hd).trans hu, (hexec u hdu).trans hv, hucsr, hvcsr.trans hcsr, hprog, hres, ?_⟩
  rw [hexec v (hdisp hv hdu), hret, hcsr]

/-- Settles O20: each operation is CsrClear of its bit. -/
theorem irqDisablesClearOneBit : Obligations.IrqDisablesClearOneBit := by
  intro s hidle row hrow
  obtain ⟨c, mask, hexec, hcsr⟩ : ∃ (c : CsrName) (mask : Word), (∀ t : State, exec row.1 t = csrClear c mask t) ∧
      (csrWrite c (csrValue s s.draws.head c &&& ~~~mask) s).csr = row.2 := by
    simp only [List.mem_cons, List.not_mem_nil, or_false] at hrow
    obtain rfl | rfl | rfl := hrow
    · exact ⟨_, _, fun t => rfl, csrWrite_mstatus_clear s _⟩
    · exact ⟨.mie, _, fun t => rfl, rfl⟩
    · exact ⟨.mie, _, fun t => rfl, rfl⟩
  obtain ⟨u, hu, hucsr, hret⟩ := csrClear_run (c := c) (mask := mask) hidle
  exact ⟨u, (hexec s).trans hu, hucsr, by rw [hexec u, hret, hcsr]⟩

end Sys2Proof.Machine
end

section
/-! The machine's turns: running a statement, a handler's end, traps and their return (60_exceptions.md), the timer (45_timer_pwm.md). -/

namespace Sys2Proof.Machine

/-! ### Whose turn it is -/

theorem State.HostToMove.turn_eq {s : State} (h : s.HostToMove) : turn s = hostTurn s := by
  obtain ⟨hf, hr, hm⟩ := h
  rw [turn, hf, hr]
  exact if_pos hm

/-- With an interrupt to take, the host's move takes it. -/
theorem step_interrupt {s : State} {n : Nat} (h : s.HostToMove) (hp : pendingInterrupt s = some n) :
    step s = takeTrap (irqCause n) s.moved := by
  rw [step_act, h.turn_eq, hostTurn, hp, act]

/-- With none, the host's move is its context's. -/
theorem step_context {s : State} (h : s.HostToMove) (hp : pendingInterrupt s = none) : step s = act (contextTurn s) s.moved := by
  rw [step_act, h.turn_eq, hostTurn, hp]

theorem step_raising {s : State} {code : BitVec 31} (h : s.HostToMove) (hp : pendingInterrupt s = none)
    (hr : s.cur.raising = some code) : step s = takeTrap (exceptionCause code) s.moved := by
  rw [step_context h hp, contextTurn, hr, act]

/-- A context with nothing left to run. -/
theorem step_empty {s : State} (h : s.HostToMove) (hp : pendingInterrupt s = none) (hr : s.cur.raising = none)
    (hq : s.cur.prog = []) : step s = act (emptyTurn s.cur) s.moved := by
  rw [step_context h hp, contextTurn, hr, hq]

/-- Settles O56. -/
theorem stepRunsTheDecodedInstruction : Obligations.StepRunsTheDecodedInstruction := by
  intro s q qs ⟨hf, hrf, hm⟩ hp hr hq d hd
  have hturn : requestTurn s.params q = decodeTurn d := by
    obtain ⟨f, bytes, rfl, hd⟩ | ⟨addr, bits, write, data, rfl, hd⟩ := hd <;> exact congrArg decodeTurn hd
  have hstep := step_request hf hrf hm hp hr hq
  rw [hturn] at hstep
  exact ⟨fun i hi => by subst hi; exact hstep, fun e he => by subst he; exact hstep⟩

/-- The agenda is no device's state: a read does not see it. -/
theorem readValue_moved (r : Reg) (s : State) (d : Word) : readValue s.moved d r = readValue s d r := by cases r <;> rfl

/-- Settles O57. -/
theorem pollAndRmwStatementsRun : Obligations.PollAndRmwStatementsRun := by
  intro s qs r ⟨hf, hrf, hm⟩ hp hr
  have hread : regRead r s.moved = (readValue s s.draws.head r, (s.moved.emit [.regRd r (readValue s s.draws.head r)]).takeDraw) := by
    rw [regRead_eq, readValue_moved, State.moved_draws]
  refine ⟨fun bit want hq => ?_, fun c b hq => ?_⟩
  · have hstep : step s = execPoll r bit want s.moved := step_request hf hrf hm hp hr hq
    have hval := readValue_moved r s s.moved.draws.head
    refine ⟨fun h => ?_, fun h => ?_⟩
    · rw [hstep, execPoll, poll_hit (by rwa [hval]), hread]; rfl
    · rw [hstep, execPoll, poll_miss (by rwa [hval]), hread]; rfl
  · have hstep : step s = execRmw r c b s.moved := step_request hf hrf hm hp hr hq
    refine ⟨fun h => ?_, fun h t ht => ?_⟩
    · rw [hstep, execRmw, rmw_idle_eq_kept (s := s.moved) _ _ h, State.kept, readValue_moved]; rfl
    · rw [hstep, execRmw, rmw_of_rmwWrite (s := s.moved) _ _ h, writeStatement]
      exact congrArg (andThen · fun t => .next (t.finish none)) ht

/-- Settles O17. -/
theorem handlerEndReturnsToItsCaller : Obligations.HandlerEndReturnsToItsCaller := by
  intro s n h f fs hhost hp hk hq hr hs
  rw [step_empty hhost hp hr hq, emptyTurn, hk]
  simp only [act, handlerEnd, State.moved_susp, hs]
  rfl

/-! ### The timer, and when an interrupt is due -/

theorem getLsbD_mip (s : State) (n : Nat) :
    (mip s).getLsbD n = if n = 11 then gpioIrq s else if n = 7 then timerPending s else false := by
  simp only [mip, getLsbD_setBit, Config.irqTimer, Config.irqExternal]
  by_cases h11 : n = 11
  · simp [h11]
  · by_cases h7 : n = 7 <;> simp [h11, h7]

theorem timerPending_iff {s : State} : timerPending s = true ↔ s.timer.mtimecmp.toNat ≤ s.timer.mtime.toNat := by
  simp only [timerPending, decide_eq_true_eq, BitVec.le_def]

/-- Settles O49. -/
theorem timerAdvancesAndRaisesItsLevel : Obligations.TimerAdvancesAndRaisesItsLevel := by
  intro s k ms hf hr hm
  refine ⟨?_, ?_, getLsbD_mip s 11, fun n h7 h11 => by rw [getLsbD_mip, if_neg h11, if_neg h7]⟩
  · rw [step_device hf hr hm (by simp), deviceMove, timerAdvance, BitVec.ofNat_add, BitVec.ofNat_toNat, BitVec.ofNat_toNat,
      BitVec.setWidth_eq, BitVec.setWidth_eq]
  · rw [getLsbD_mip, if_neg (by decide), if_pos rfl, timerPending_iff]

theorem interruptEnabled_external (s : State) :
    interruptEnabled s 11 = (s.csr.mstatusMIE && (s.csr.mie.getLsbD 11 && gpioIrq s)) := by
  rw [interruptEnabled, getLsbD_mip, if_pos rfl]

theorem interruptEnabled_timer (s : State) :
    interruptEnabled s 7 = (s.csr.mstatusMIE && (s.csr.mie.getLsbD 7 && timerPending s)) := by
  rw [interruptEnabled, getLsbD_mip, if_neg (by decide), if_pos rfl]

theorem pendingInterrupt_of_external {s : State} (h : interruptEnabled s 11 = true) : pendingInterrupt s = some 11 := if_pos h

theorem pendingInterrupt_of_timer {s : State} (h11 : interruptEnabled s 11 = false) (h7 : interruptEnabled s 7 = true) :
    pendingInterrupt s = some 7 := (if_neg (by simp [Config.irqExternal, h11])).trans (if_pos h7)

theorem pendingInterrupt_eq_none {s : State} :
    pendingInterrupt s = none ↔ interruptEnabled s 11 = false ∧ interruptEnabled s 7 = false := by
  simp only [pendingInterrupt, Config.irqExternal, Config.irqTimer]
  by_cases h11 : interruptEnabled s 11 = true
  · simp [h11]
  · by_cases h7 : interruptEnabled s 7 = true <;> simp [h11, h7]

theorem pendingInterrupt_of_masked {s : State} (h : s.csr.mstatusMIE = false) : pendingInterrupt s = none :=
  pendingInterrupt_eq_none.2 ⟨by rw [interruptEnabled, h]; rfl, by rw [interruptEnabled, h]; rfl⟩

/-! ### Trap entry -/

/-- The state after a trap is taken (60_exceptions.md R377). -/
def State.trapped (s : State) (cause : Word) : State :=
  { s with
    csr := { s.csr with
      mepc := resumePoint s, mcause := cause, mstatusMPIE := s.csr.mstatusMIE, mstatusMIE := false }
    trapDepth := 1
    history := s.history ++ [.trapTaken cause]
    susp := s.cur :: s.susp
    cur := stubFrame s.csr.mtvec }

theorem takeTrap_armed {s : State} (cause : Word) (hd : s.disp.state = .armed) (h0 : s.trapDepth = 0) :
    takeTrap cause s = .next (s.trapped cause) := by
  rw [takeTrap, if_neg (by simp [hd]), if_neg (by omega), h0]
  rfl

/-- Settles O21. -/
theorem pendingInterruptIsTakenExternalFirst : Obligations.PendingInterruptIsTakenExternalFirst := by
  intro s n hhost hd h0 hmie hdue
  have hp : pendingInterrupt s = some n := by
    obtain ⟨rfl, h11, hirq⟩ | ⟨rfl, h7, hle, hno⟩ := hdue
    · exact pendingInterrupt_of_external (by rw [interruptEnabled_external, hmie, h11, hirq]; rfl)
    · refine pendingInterrupt_of_timer ?_ (by rw [interruptEnabled_timer, hmie, h7, timerPending_iff.2 hle]; rfl)
      rw [interruptEnabled_external]
      obtain h | h := hno
      · rw [h, Bool.false_and, Bool.and_false]
      · rw [h, Bool.and_false, Bool.and_false]
  have hcause : irqCause n = BitVec.ofNat 32 (2 ^ 31 + n) := by obtain ⟨rfl, -⟩ | ⟨rfl, -⟩ := hdue <;> rfl
  rw [step_interrupt hhost hp, takeTrap_armed (s := s.moved) _ hd h0, hcause, State.trapped, State.moved_csr, hmie]
  rfl

/-- Settles O22. -/
theorem trapEntryStopsOrIsNotDue : Obligations.TrapEntryStopsOrIsNotDue := by
  refine ⟨fun s n hhost hp => ⟨fun hd => ?fault, fun hd h1 => ?nested⟩, fun s => ?none⟩
  case fault => exact (step_interrupt hhost hp).trans (if_pos hd)
  case nested => exact (step_interrupt hhost hp).trans ((if_neg (by simp [hd])).trans (if_pos h1))
  case none =>
    rw [pendingInterrupt_eq_none, interruptEnabled_external, interruptEnabled_timer, ← Nat.not_le, ← timerPending_iff]
    simp only [Bool.and_eq_false_iff, or_and_left, Bool.not_eq_true]

/-! ### The entry stub and the return -/

/-- The stub after it has read the cause (60_exceptions.md R378): it holds IRQ.DISPATCH of it. -/
def State.dispatching (s : State) (q : Request) : State :=
  { s with cur := { s.cur with prog := [q], phase := .idle, loc := Locals.none }, draws := s.draws.next }

theorem requestTurn_irqDispatch (p : Params) (c : Word) :
    requestTurn p (.stmt .op (opBytes 0x32#8 c 0#32 0#32 0#32)) = .instr (.irqDispatch c) :=
  congrArg decodeTurn (decodeBytes_opBytes p (code := 0x32#8) (a := c) (b := 0#32) (c := 0#32) (d := 0#32) (arity := 1) rfl rfl)

theorem step_stubEntry {s : State} {entry : Word} (h : s.HostToMove) (hm : s.csr.mstatusMIE = false)
    (hk : s.cur.kind = .stub entry) (hq : s.cur.prog = []) (hr : s.cur.raising = none) (hph : s.cur.phase = .stubEntry) :
    step s = .next (s.moved.dispatching (.stmt .op (opBytes 0x32#8 s.csr.mcause 0#32 0#32 0#32))) := by
  rw [step_empty h (pendingInterrupt_of_masked hm) hr hq, emptyTurn, hk]
  simp only [hph, if_true]
  rfl

/-- The stub returns to the context that `mepc` names, the one right below it (60_exceptions.md R379). -/
theorem step_trapReturn {s : State} {entry : Word} {g : Frame} {rest : List Frame} (h : s.HostToMove)
    (hm : s.csr.mstatusMIE = false) (hk : s.cur.kind = .stub entry) (hq : s.cur.prog = []) (hr : s.cur.raising = none)
    (hph : s.cur.phase ≠ .stubEntry) (hs : s.susp = g :: rest) (hd : rest.length = s.csr.mepc.depth) :
    step s = .next { s with
      csr := { s.csr with mstatusMIE := s.csr.mstatusMPIE, mstatusMPIE := true }
      trapDepth := s.trapDepth - 1
      cur := g
      susp := rest
      moves := s.moves.tail } := by
  rw [step_empty h (pendingInterrupt_of_masked hm) hr hq, emptyTurn, hk]
  simp only [hph, if_false, act, trapReturn, resumeAt, State.moved_susp, State.moved_csr, hs, List.length_cons, hd, Nat.sub_self,
    List.drop_zero]
  rfl

/-- Settles O23. -/
theorem entryStubDispatchesThenReturns : Obligations.EntryStubDispatchesThenReturns := by
  intro s entry hhost hm hk hq hr
  exact ⟨fun hph => ⟨_, requestTurn_irqDispatch _ _, step_stubEntry hhost hm hk hq hr hph⟩,
    fun hph g rest hs hd => step_trapReturn hhost hm hk hq hr hph hs hd⟩

/-! ### An exception, and an interrupt inside IRQ.GLOBAL_ENABLE -/

theorem moved_of_nil {s : State} (h : s.moves = []) : s.moved = s := by
  rw [State.moved, h, List.tail_nil, ← h]

theorem hostToMove_of_nil {s : State} (hf : s.faulted = none) (hr : s.refused = none) (h : s.moves = []) : s.HostToMove :=
  ⟨hf, hr, by rw [nextMove, h]; rfl⟩

/-- An exception cause has no interrupt flag (30_encoding.md R113). -/
theorem getLsbD_exceptionCause (code : BitVec 31) : (exceptionCause code).getLsbD 31 = false := by
  simp [exceptionCause]

theorem step_dispatch_exception {s : State} {q : Request} {qs : List Request} {cause : Word} (h : s.HostToMove)
    (hm : s.csr.mstatusMIE = false) (hr : s.cur.raising = none) (hq : s.cur.prog = q :: qs)
    (hturn : requestTurn s.params q = .instr (.irqDispatch cause)) (hd : s.disp.state = .armed) (hph : s.cur.phase = .idle)
    (hc : cause.getLsbD 31 = false) : step s = .next (s.moved.finish none) := by
  rw [step_request h.1 h.2.1 h.2.2 (pendingInterrupt_of_masked hm) hr hq, hturn, act,
    exec_irqDispatch_idle (s := s.moved) _ hd hph, if_pos (.inl hc)]

/-- Settles O24: the trap, the stub's read of the cause, IRQ.DISPATCH that ignores it, the return. -/
theorem exceptionIsIgnoredAndRaisedAgain : Obligations.ExceptionIsIgnoredAndRaisedAgain := by
  intro s code hf hrf hmoves hp hd h0 hr
  have htrap : step s = .next (s.trapped (exceptionCause code)) := by
    rw [step_raising (hostToMove_of_nil hf hrf hmoves) hp hr, moved_of_nil hmoves, takeTrap_armed _ hd h0]
  have hread := step_stubEntry (s := s.trapped (exceptionCause code)) (entry := s.csr.mtvec)
    (hostToMove_of_nil hf hrf hmoves) rfl rfl rfl rfl rfl
  rw [moved_of_nil (s := s.trapped _) hmoves] at hread
  have hignore := step_dispatch_exception
    (s := (s.trapped (exceptionCause code)).dispatching (.stmt .op (opBytes 0x32#8 (exceptionCause code) 0#32 0#32 0#32)))
    (hostToMove_of_nil hf hrf hmoves) rfl rfl rfl (requestTurn_irqDispatch _ _) hd rfl (getLsbD_exceptionCause code)
  rw [moved_of_nil (s := (s.trapped _).dispatching _) hmoves] at hignore
  refine ⟨_, _, _, _, htrap, hread, hignore, step_trapReturn (entry := s.csr.mtvec) (g := s.cur) (rest := s.susp)
    (hostToMove_of_nil hf hrf hmoves) rfl rfl rfl rfl (by simp) rfl rfl, ?_⟩
  show ({ s with
    csr := { s.csr with mepc := resumePoint s, mcause := exceptionCause code, mstatusMPIE := true }
    trapDepth := 0
    history := s.history ++ [.trapTaken (exceptionCause code)]
    draws := s.draws.next
    moves := s.moves.tail } : State) = _
  rw [hmoves, h0]
  rfl

/-- The write of IRQ.GLOBAL_ENABLE (42_irq_dispatcher.md R204): MIE is set and only the return is left. -/
theorem exec_globalEnable_write {s : State} (hd : s.disp.state = .armed) (hph : s.cur.phase = .csrWrite) :
    ∃ c : Csr, exec .irqGlobalEnable s = .next (({ s with csr := c } : State).goTo .ret Locals.none) ∧ c.mstatusMIE = true ∧
      c.mie = s.csr.mie := by
  refine ⟨(csrWrite .mstatus (s.cur.loc.v ||| bitWord Config.mieBit) s).csr, ?_, ?_, rfl⟩
  · refine (if_neg (by simp [hd])).trans ?_
    rw [csrSet, hph, ← csrWrite_eq]
  · simp [csrWrite, Config.mieBit]

/-- Settles O25. -/
theorem globalEnableIsInterruptedBeforeReturn : Obligations.GlobalEnableIsInterruptedBeforeReturn := by
  intro s q qs hf hrf hmoves hd h0 hm hr hq hturn hph hdue
  have hhost := hostToMove_of_nil hf hrf hmoves
  obtain ⟨c, hexec, hmie, hmieBits⟩ := exec_globalEnable_write hd hph
  have hu : step s = .next (({ s with csr := c } : State).goTo .ret Locals.none) := by
    rw [step_request hf hrf hhost.2.2 (pendingInterrupt_of_masked hm) hr hq, hturn, act, moved_of_nil hmoves, hexec]
  obtain ⟨n, hn⟩ : ∃ n, pendingInterrupt (({ s with csr := c } : State).goTo .ret Locals.none) = some n := by
    refine Option.ne_none_iff_exists'.1 fun hnone => ?_
    obtain ⟨hext, htim⟩ := pendingInterrupt_eq_none.1 hnone
    have hext' : (c.mstatusMIE && (c.mie.getLsbD 11 && gpioIrq s)) = false := (interruptEnabled_external _).symm.trans hext
    have htim' : (c.mstatusMIE && (c.mie.getLsbD 7 && timerPending s)) = false := (interruptEnabled_timer _).symm.trans htim
    rw [hmie, hmieBits] at hext' htim'
    obtain ⟨h11, hirq⟩ | ⟨h7, hle⟩ := hdue
    · rw [h11, hirq] at hext'; cases hext'
    · rw [h7, timerPending_iff.2 hle] at htim'; cases htim'
  have hv := (step_interrupt (s := ({ s with csr := c } : State).goTo .ret Locals.none) (hostToMove_of_nil hf hrf hmoves) hn).trans
    (takeTrap_armed _ hd h0)
  exact ⟨_, _, hu, hv, hmie, hq, rfl, rfl, congrArg List.length hq, rfl⟩

end Sys2Proof.Machine
end

section
/-! Timer and PWM accesses (45_timer_pwm.md), reads of the SPI and I2C registers, the written words of the encoding tables, reset. -/

namespace Sys2Proof.Machine

/-! ### The halves of a 64-bit register -/

theorem lowHalf_eq (x : BitVec 64) : x.extractLsb' 0 32 = BitVec.ofNat 32 (x.toNat % 2 ^ 32) := by
  apply BitVec.eq_of_toNat_eq
  simp

theorem highHalf_eq (x : BitVec 64) : x.extractLsb' 32 32 = BitVec.ofNat 32 (x.toNat / 2 ^ 32) := by
  apply BitVec.eq_of_toNat_eq
  simp [Nat.shiftRight_eq_div_pow]

theorem halves_append (hi lo : Word) : hi ++ lo = BitVec.ofNat 64 (hi.toNat * 2 ^ 32 + lo.toNat) := by
  apply BitVec.eq_of_toNat_eq
  rw [BitVec.toNat_append, ← Nat.shiftLeft_add_eq_or_of_lt lo.isLt, Nat.shiftLeft_eq, BitVec.toNat_ofNat, Nat.mod_eq_of_lt]
  omega

theorem lowHalf_write (x : BitVec 64) (v : Word) :
    x.extractLsb' 32 32 ++ v = BitVec.ofNat 64 (x.toNat / 2 ^ 32 * 2 ^ 32 + v.toNat) := by
  rw [halves_append, highHalf_eq, BitVec.toNat_ofNat, Nat.mod_eq_of_lt (by omega)]

theorem highHalf_write (x : BitVec 64) (v : Word) :
    v ++ x.extractLsb' 0 32 = BitVec.ofNat 64 (v.toNat * 2 ^ 32 + x.toNat % 2 ^ 32) := by
  rw [halves_append, lowHalf_eq, BitVec.toNat_ofNat, Nat.mod_eq_of_lt (by omega)]

/-- A write whose effect, after its event, is to replace the timer's registers. -/
theorem writeStatement_timer {r : Reg} {v : Word} {x y : Timer} {s : State}
    (h : writeEffect r v (s.emit [.regWr r v]) = .next { s.emit [.regWr r v] with timer := y }) (hxy : y = x) :
    writeStatement r v none s = .next ((({ s with timer := x } : State).emit [.regWr r v]).finish none) := by
  rw [writeStatement, regWrite, h, andThen_next, hxy]
  rfl

/-- A read whose value is `v`. -/
theorem readStatement_of_value {r : Reg} {v : Word} {s : State} (h : readValue s s.draws.head r = v) :
    readStatement r s = .next (((s.emit [.regRd r v]).takeDraw).finish (some v)) := by
  rw [readStatement_eq, h]

/-- Settles O48. -/
theorem timerHalvesAreReadAndWrittenAlone : Obligations.TimerHalvesAreReadAndWrittenAlone := by
  intro s v
  refine ⟨fun row hrow => ?reads, fun row hrow => ?writes⟩ <;> simp only [List.mem_cons, List.not_mem_nil, or_false] at hrow
  case reads =>
    obtain rfl | rfl | rfl | rfl := hrow
    · exact readStatement_of_value (lowHalf_eq s.timer.mtime)
    · exact readStatement_of_value (highHalf_eq s.timer.mtime)
    · exact readStatement_of_value (lowHalf_eq s.timer.mtimecmp)
    · exact readStatement_of_value (highHalf_eq s.timer.mtimecmp)
  case writes =>
    obtain rfl | rfl | rfl | rfl := hrow
    · exact writeStatement_timer (r := .mtimeLo) (v := v) (s := s) rfl (by rw [← lowHalf_write]; rfl)
    · exact writeStatement_timer (r := .mtimeHi) (v := v) (s := s) rfl (by rw [← highHalf_write]; rfl)
    · exact writeStatement_timer (r := .mtimecmpLo) (v := v) (s := s) rfl (by rw [← lowHalf_write]; rfl)
    · exact writeStatement_timer (r := .mtimecmpHi) (v := v) (s := s) rfl (by rw [← highHalf_write]; rfl)

/-! ### PWM operations on a channel in range -/

theorem channelOp_inRange {ch : Word} {c : Chan} (hch : channelOf ch = some c) (body : Chan → State → Result) (s : State) :
    channelOp ch body s = body c s := by rw [channelOp, hch]

/-- The free 16 bits of a counter. -/
theorem low16_eq (d : Word) : (d.setWidth 16).setWidth 32 = d &&& 0xFFFF#32 := by
  apply BitVec.eq_of_toNat_eq
  rw [BitVec.toNat_and, BitVec.toNat_setWidth, BitVec.toNat_setWidth, show (0xFFFF#32).toNat = 2 ^ 16 - 1 from rfl,
    Nat.and_two_pow_sub_one_eq_mod]
  omega

theorem readStatement_pwmCounter (c : Chan) (s : State) :
    readStatement (.pwmCounter c) s = .next (((s.emit [.regRd (.pwmCounter c) (s.draws.head &&& 0xFFFF#32)]).takeDraw).finish
      (some (s.draws.head &&& 0xFFFF#32))) := readStatement_of_value (low16_eq _)

theorem exec_pwmReadCounter {ch : Word} {c : Chan} (hch : channelOf ch = some c) (s : State) :
    exec (.pwmReadCounter ch) s = readStatement (.pwmCounter c) s := by
  have hval : (regRead (.pwmCounter c) s).1 = s.draws.head &&& 0xFFFF#32 := low16_eq s.draws.head
  refine (channelOp_inRange hch _ s).trans ?_
  rw [readThrough, readStatement, low16_eq, hval, BitVec.and_assoc, BitVec.and_self]

/-- Settles O52. -/
theorem pwmSettersStoreTheirValue : Obligations.PwmSettersStoreTheirValue := by
  intro s c x hx ch
  have hch : channelOf ch = some c := by cases c <;> rfl
  have hok := pwmValueOk_iff.2 hx
  refine ⟨?period, ?duty, fun i hi => ?counter⟩
  case period =>
    rw [exec_pwmSetPeriod, channelOp_inRange hch, valueChecked, hok]
    exact writeStatement_pwmPeriod c x _ s
  case duty =>
    rw [exec_pwmSetDuty, channelOp_inRange hch, valueChecked, hok]
    exact writeStatement_pwmDuty c x _ s
  case counter =>
    simp only [List.mem_cons, List.not_mem_nil, or_false] at hi
    obtain rfl | rfl := hi
    · exact (exec_pwmReadCounter hch s).trans (readStatement_pwmCounter c s)
    · cases c
      · exact readStatement_pwmCounter .c0 s
      · exact readStatement_pwmCounter .c1 s

section
variable {c : Chan} {x y : Word} {s : State}

/-- A register write of a channel, then the operation's next micro-step. -/
theorem writeThen_of_setPwm {r : Reg} {v : Word} {x : Pwm} (ph : Phase)
    (h : writeEffect r v (s.emit [.regWr r v]) = .next ((s.emit [.regWr r v]).setPwm c x)) :
    writeThen r v ph s = .next (((s.setPwm c x).emit [.regWr r v]).goTo ph Locals.none) := by
  rw [writeThen, regWrite, h, andThen_next, State.setPwm_emit]

theorem writeThen_pwmCtrl (c : Chan) (v : Word) (ph : Phase) (s : State) :
    writeThen (.pwmCtrl c) v ph s =
      .next (((s.setPwm c { s.pwm c with ctrl := v }).emit [.regWr (.pwmCtrl c) v]).goTo ph Locals.none) :=
  writeThen_of_setPwm ph (by rw [writeEffect, State.emit_pwm])

theorem writeThen_pwmPeriod (c : Chan) (v : Word) (ph : Phase) (s : State) :
    writeThen (.pwmPeriod c) v ph s = .next
      (((s.setPwm c { s.pwm c with period := BitVec.ofNat 16 v.toNat }).emit [.regWr (.pwmPeriod c) v]).goTo ph Locals.none) :=
  writeThen_of_setPwm ph (by rw [writeEffect, State.emit_pwm, BitVec.ofNat_toNat])

theorem writeThen_pwmDuty (c : Chan) (v : Word) (ph : Phase) (s : State) :
    writeThen (.pwmDuty c) v ph s = .next
      (((s.setPwm c { s.pwm c with duty := BitVec.ofNat 16 v.toNat }).emit [.regWr (.pwmDuty c) v]).goTo ph Locals.none) :=
  writeThen_of_setPwm ph (by rw [writeEffect, State.emit_pwm, BitVec.ofNat_toNat])

theorem pwmInitSteps_idle (h : s.cur.phase = .idle) : pwmInitSteps c s = writeThen (.pwmCtrl c) 0#32 .pwmPeriod s := by
  rw [pwmInitSteps, h]

theorem pwmStartSteps_idle (h : s.cur.phase = .idle) : pwmStartSteps x y c s = writeThen (.pwmPeriod c) x .pwmDuty s := by
  rw [pwmStartSteps, h]

theorem pwmStartSteps_read (h : s.cur.phase = .pwmCtrl) :
    pwmStartSteps x y c s = .next (s.kept (.pwmCtrl c) (s.pwm c).ctrl) := by
  rw [pwmStartSteps, h]
  rfl

/-- PWM.INIT's three writes. -/
theorem perform_pwmInit {ch : Word} (hch : channelOf ch = some c) (hidle : s.cur.phase = .idle) :
    perform (.pwmInit ch) 3 s = .next (((s.setPwm c { ctrl := 0#32, period := 0#16, duty := 0#16 }).emit
      [.regWr (.pwmCtrl c) 0#32, .regWr (.pwmPeriod c) 0#32, .regWr (.pwmDuty c) 0#32]).finish (some 0#32)) := by
  have hexec (t : State) : exec (.pwmInit ch) t = pwmInitSteps c t := channelOp_inRange hch _ t
  refine play_host ((hexec s).trans ((pwmInitSteps_idle hidle).trans (writeThen_pwmCtrl c _ _ s)))
    (play_host ((hexec _).trans (writeThen_pwmPeriod c 0#32 .pwmDuty _))
      (play_host ((hexec _).trans (writeStatement_pwmDuty c 0#32 (some Config.ok) _)) ?_))
  cases c <;> simp [play, State.setPwm, State.emit, State.goTo, State.finish, State.pwm, Config.ok]

/-- The read-modify-write of a channel's CTRL. -/
theorem perform_rmw_pwmCtrl {i : Instr} {f : Word → Word} {w : Word}
    (hi : ∀ t : State, t.params = s.params → exec i t = rmw (.pwmCtrl c) f (some Config.ok) t) (hidle : s.cur.phase = .idle) (hw : f (s.pwm c).ctrl = w) :
    perform i 2 s = .next ((((s.setPwm c { s.pwm c with ctrl := w }).emit
      [.regRd (.pwmCtrl c) (s.pwm c).ctrl, .regWr (.pwmCtrl c) w]).takeDraw).finish (some 0#32)) := by
  have hread : exec i s = .next (s.kept (.pwmCtrl c) (s.pwm c).ctrl) := (hi s rfl).trans (rmw_idle_eq_kept f _ hidle)
  have hwrite := (hi (s.kept (.pwmCtrl c) (s.pwm c).ctrl) rfl).trans (rmw_kept f _ s)
  rw [hw, writeStatement_pwmCtrl] at hwrite
  refine play_host hread (play_host hwrite ?_)
  cases c <;> simp [play, State.kept, State.setPwm, State.emit, State.goTo, State.finish, State.pwm, State.takeDraw, Config.ok]

/-- PWM.START's two writes, its read and its write. -/
theorem perform_pwmStart {ch : Word} (hch : channelOf ch = some c) (hidle : s.cur.phase = .idle) (hx : x.toNat ≤ 0xFFFF)
    (hy : y.toNat ≤ 0xFFFF) {w : Word} (hw : (s.pwm c).ctrl ||| bitWord s.params.pwmEnBit = w) :
    perform (.pwmStart ch x y) 4 s = .next ((((s.setPwm c
        { ctrl := w, period := BitVec.ofNat 16 x.toNat, duty := BitVec.ofNat 16 y.toNat }).emit
      [.regWr (.pwmPeriod c) x, .regWr (.pwmDuty c) y, .regRd (.pwmCtrl c) (s.pwm c).ctrl,
        .regWr (.pwmCtrl c) w]).takeDraw).finish (some 0#32)) := by
  have hexec (t : State) : exec (.pwmStart ch x y) t = pwmStartSteps x y c t := by
    rw [exec_pwmStart, channelOp_inRange hch, valueChecked, pwmValueOk_iff.2 hx, pwmValueOk_iff.2 hy]
    rfl
  refine play_host ((hexec s).trans ((pwmStartSteps_idle hidle).trans (writeThen_pwmPeriod c x _ s)))
    (play_host ((hexec _).trans (writeThen_pwmDuty c y .pwmCtrl _))
      (play_host ((hexec _).trans (pwmStartSteps_read rfl)) (play_host ((hexec _).trans (writeStatement_pwmCtrl c _ (some Config.ok) _)) ?_)))
  subst hw
  cases c <;> simp [play, State.kept, State.setPwm, State.emit, State.goTo, State.finish, State.pwm, State.takeDraw, Config.ok]

end

/-- Settles O53. -/
theorem pwmSequencesWriteInOrder : Obligations.PwmSequencesWriteInOrder := by
  intro s c x y _ hidle hx hy ch on off
  have hch : channelOf ch = some c := by cases c <;> rfl
  have hfirst {i : Instr} {n : Nat} {t : State} (h : perform i (n + 1) s = .next t) : ∃ u, exec i s = .next u :=
    let ⟨u, hu, _⟩ := andThen_eq_next h
    ⟨u, hu⟩
  have hinit := perform_pwmInit hch hidle
  have henable := perform_rmw_pwmCtrl (c := c) (i := .pwmEnable ch) (w := on)
    (fun t ht => (channelOp_inRange hch _ t).trans (by rw [ht])) hidle rfl
  have hdisable := perform_rmw_pwmCtrl (c := c) (i := .pwmDisable ch) (w := off)
    (fun t ht => (channelOp_inRange hch _ t).trans (by rw [ht])) hidle rfl
  have hstart := perform_pwmStart hch hidle hx hy (w := on) rfl
  refine ⟨fun i hi => ?_, hinit, henable, hdisable, hstart⟩
  simp only [List.mem_cons, List.not_mem_nil, or_false] at hi
  obtain rfl | rfl | rfl | rfl := hi
  · exact hfirst hinit
  · exact hfirst henable
  · exact hfirst hdisable
  · exact hfirst hstart

end Sys2Proof.Machine
end

section
/-! Reads of the SPI and I2C registers, the written words of the encoding tables, and the state after reset. -/

namespace Sys2Proof.Machine

/-! ### Status words -/

theorem getLsbD_spiStatus_free {s : State} {d : Word} {b : Nat} (hb : b ∉ [s.params.spiBusyBit, s.params.spiDoneBit]) :
    (readValue s d .spiStatus).getLsbD b = d.getLsbD b := by
  simp only [List.mem_cons, List.not_mem_nil, or_false, not_or] at hb
  simp [readValue, spiStatusWord, hb]

theorem getLsbD_i2cStatus_free {s : State} {d : Word} {b : Nat}
    (hb : b ∉ [s.params.i2cBusyBit, s.params.i2cAckBit, s.params.i2cArbLostBit, s.params.i2cDoneBit, s.params.i2cErrorBit]) :
    (readValue s d .i2cStatus).getLsbD b = d.getLsbD b := by
  simp only [List.mem_cons, List.not_mem_nil, or_false, not_or] at hb
  simp [readValue, i2cStatusWord, hb]

/-- Settles O26. -/
theorem spiAndI2cReadsChangeNothing : Obligations.SpiAndI2cReadsChangeNothing := by
  intro s hv
  refine ⟨⟨_, fun row hrow => ?spi, fun b _ hb => getLsbD_spiStatus_free hb, readStatement_eq .spiStatus s⟩,
    ⟨_, fun row hrow => ?i2c, fun b _ hb => getLsbD_i2cStatus_free hb, readStatement_eq .i2cStatus s⟩, fun row hrow => ?others⟩ <;>
    simp only [List.mem_cons, List.not_mem_nil, or_false] at hrow
  case spi =>
    obtain ⟨hbusy, hdone⟩ := spiStatus_bits hv s.draws.head
    obtain rfl | rfl := hrow
    · exact hbusy
    · exact hdone
  case i2c =>
    obtain ⟨hbusy, hack, harb, hdone, herr⟩ := i2cStatus_bits hv s.draws.head
    obtain rfl | rfl | rfl | rfl | rfl := hrow
    · exact hbusy
    · exact hack
    · exact harb
    · exact hdone
    · exact herr
  case others =>
    obtain rfl | rfl | rfl | rfl | rfl | rfl | rfl := hrow
    · exact readStatement_eq .spiRxdata s
    · exact readStatement_eq .spiConfig s
    · exact readStatement_eq .spiCtrl s
    · exact readStatement_eq .spiTxdata s
    · exact readStatement_eq .i2cData s
    · exact readStatement_eq .i2cPrescale s
    · exact readStatement_eq .i2cCtrl s

/-! ### The written words -/

/-- Settles O55, by evaluation of the decoder. -/
theorem writtenWordsDecode : Obligations.WrittenWordsDecode :=
  ⟨rfl, rfl, rfl, rfl, rfl, rfl, rfl, rfl, rfl, rfl, rfl, rfl⟩

/-! ### Reset -/

theorem bases_valid : Config.bases.Valid := by
  unfold Config.bases
  split
  · assumption
  · decide

/-- The defaults of 00_scope.md R5 meet its constraints, whatever the open parameters are. -/
theorem params_valid : Config.params.Valid where
  bases := bases_valid
  pinMax := Nat.le_of_lt_succ Config.pinMax.isLt
  spiWords := by decide
  spiBits := by decide
  spiBitsFit := by decide
  divHolds31 := by decide
  divFits := by decide
  modeFits := by decide
  fieldsApart := by decide
  burstDivs := by
    show Config.burstDivW2.val ≠ (Config.burstDivW2.val + 1 + Config.burstDivGap.val) % 256
    omega
  i2cWords := by decide
  i2cBits := by decide
  i2cBitsFit := by decide
  errCodes := by decide
  errNegative e he := by
    simp only [List.mem_cons, List.not_mem_nil, or_false] at he
    obtain rfl | rfl | rfl := he <;> rfl
  pwmEnBit := by decide

theorem unitOf_ofWord (w : SpiWidth) (v : Word) :
    unitOf (SpiUnit.ofWord w v).width (SpiUnit.ofWord w v).value = (SpiUnit.ofWord w v).value := by
  cases w with
  | w8 => exact unitOf_unitOf .w8 v
  | w16 => exact unitOf_unitOf .w16 v
  | w32 => exact BitVec.and_allOnes

theorem reset_powerOn : State.reset.PowerOn where
  disp := rfl
  mie := rfl
  noTrap := rfl
  curIdle := rfl
  suspIdle := by simp [State.reset]
  notFaulted := rfl
  notRefused := rfl
  noHistory := rfl

theorem reset_deviceInv : State.reset.DeviceInv where
  params := params_valid
  mem := ⟨.nil, by simp [State.reset]⟩
  spiBusy := rfl
  spiExclusive := by
    show (resetInflight.isSome && (!resetInflight.isSome && Config.resetFlag 0)) = false
    cases resetInflight.isSome <;> rfl
  spiUnit u hu := by
    obtain ⟨x, -, rfl⟩ := Option.map_eq_some_iff.1 (show Config.resetUnit.map _ = some u from hu)
    exact unitOf_ofWord x.1 x.2
  i2cOwner := by
    show (Config.resetFlag 6 && (!Config.resetFlag 6 && Config.resetFlag 7)) = false
    cases Config.resetFlag 6 <;> rfl
  i2cData := toNat_byte_lt _
  depth := by decide
  notFaulted := rfl
  notRefused := rfl

theorem reset_contextInv : State.reset.ContextInv :=
  contextInv_iff.2 ⟨rfl, rfl, by decide, stubsResume_of_countP rfl⟩

/-- A power-on state with a unit in flight. -/
def State.resetSending : State :=
  { State.reset with
    spi := { State.reset.spi with busy := true, done := false, inflight := some { width := .w8, value := 0#32 } } }

/-- Settles O60. -/
theorem resetMeetsTheInvariants : Obligations.ResetMeetsTheInvariants := by
  refine ⟨reset_powerOn, reset_deviceInv, reset_contextInv, ⟨fun h => ⟨h.spiIdle, h.i2cIdle, h.i2cNotOwned⟩, ?quiet⟩,
    State.resetSending, ?_, ?_, ?_, fun h => nomatch h.spiIdle⟩
  case quiet =>
    rintro ⟨hspi, hcmd, hown⟩
    exact ⟨hspi, reset_deviceInv.spiBusy.trans (by rw [hspi]; rfl), hcmd, hown, rfl, by simp [State.reset], rfl, rfl, rfl⟩
  · exact { reset_powerOn with }
  · exact { reset_deviceInv with
      spiBusy := rfl, spiExclusive := rfl
      spiUnit := fun u hu => by cases hu; rfl }
  · exact contextInv_iff.2 ((contextInv_iff (s := State.reset)).1 reset_contextInv)

end Sys2Proof.Machine
end

section
/-! SPI registers, command words and the engine (43_spi.md sections 1 and 2). -/

namespace Sys2Proof.Machine

/-! ### Writes of the SPI registers -/

theorem unitOf_w8 (v : Word) : unitOf .w8 v = (v.setWidth 8).setWidth 32 := by
  apply BitVec.eq_of_getLsbD_eq
  intro b hb
  rw [getLsbD_unitOf _ _ _ hb, BitVec.getLsbD_setWidth, BitVec.getLsbD_setWidth, show SpiWidth.bits .w8 = 8 from rfl]
  simp [hb]

theorem unitOf_w16 (v : Word) : unitOf .w16 v = (v.setWidth 16).setWidth 32 := by
  apply BitVec.eq_of_getLsbD_eq
  intro b hb
  rw [getLsbD_unitOf _ _ _ hb, BitVec.getLsbD_setWidth, BitVec.getLsbD_setWidth, show SpiWidth.bits .w16 = 16 from rfl]
  simp [hb]

theorem unitOf_w32 (v : Word) : unitOf .w32 v = v := BitVec.and_allOnes

/-- A word that is no command word (30_encoding.md R103, R125). -/
theorem spiCommand_eq_none {p : Params} {v : Word} (h : v ∉ [p.spiStart8, p.spiStart16, p.spiStart32]) :
    spiCommand p v = none := by
  simp only [List.mem_cons, List.not_mem_nil, or_false, not_or] at h
  rw [spiCommand, if_neg h.1, if_neg h.2.1, if_neg h.2.2]

section
variable {s : State} {v : Word}

theorem regWrite_spiTxdata (h : s.spi.inflight = none) : regWrite .spiTxdata v s =
    .next (({ s with spi := { s.spi with txdata := v } } : State).emit [.regWr .spiTxdata v]) := if_neg (by simp [h])

/-- The registers when a unit of width `w` has been started (43_spi.md R231). -/
def Spi.started (x : Spi) (w : SpiWidth) : Spi :=
  { x with inflight := some { width := w, value := unitOf w x.txdata }, done := false, busy := true }

theorem regWrite_spiCtrl {w : SpiWidth} (h : s.spi.inflight = none) (hc : spiCommand s.params v = some w) :
    regWrite .spiCtrl v s = .next (({ s with spi := s.spi.started w } : State).emit [.regWr .spiCtrl v]) := by
  refine (if_neg (by simp [h])).trans ?_
  rw [State.emit_params, hc]
  rfl

theorem regWrite_spiCtrl_illegal (h : s.spi.inflight = none) (hc : spiCommand s.params v = none) :
    regWrite .spiCtrl v s = .refused .illegalCommand := by
  refine (if_neg (by simp [h])).trans ?_
  rw [State.emit_params, hc]

/-- With a unit in flight a write of CTRL, TXDATA or CONFIG faults (43_spi.md R237). -/
theorem writeStatement_spi_overrun {r : Reg} (res : Option Word) (h : s.spi.inflight.isSome = true)
    (hr : r ∈ [Reg.spiCtrl, .spiTxdata, .spiConfig]) : writeStatement r v res s = .fault (.spiOverrun r) := by
  have hw : regWrite r v s = .fault (.spiOverrun r) := by
    simp only [List.mem_cons, List.not_mem_nil, or_false] at hr
    obtain rfl | rfl | rfl := hr <;> exact if_pos h
  rw [writeStatement, hw, andThen_fault]

theorem writeStatement_spiStart {w : SpiWidth} {u : Word} (hv : s.params.Valid) (h : s.spi.inflight = none)
    (hu : unitOf w s.spi.txdata = u) : writeStatement .spiCtrl (s.params.spiStart w) none s =
    .next ((({ s with spi := { s.spi with inflight := some { width := w, value := u }, done := false, busy := true } } : State).emit
      [.regWr .spiCtrl (s.params.spiStart w)]).finish none) := by
  subst hu
  rw [writeStatement, regWrite_spiCtrl h (spiCommand_start hv w), andThen_next]
  rfl

end

/-- Settles O27. -/
theorem spiCommandStartsOneUnit : Obligations.SpiCommandStartsOneUnit := by
  intro s v hv h
  refine ⟨?txdata, writeStatement_spiConfig v none h, fun row hrow => ?start, fun hv => ?illegal⟩
  case txdata => exact congrArg (andThen · fun t => .next (t.finish none)) (regWrite_spiTxdata h)
  case start =>
    have h8 := writeStatement_spiStart hv h (unitOf_w8 _)
    have h16 := writeStatement_spiStart hv h (unitOf_w16 _)
    have h32 := writeStatement_spiStart hv h (unitOf_w32 _)
    simp only [List.mem_cons, List.not_mem_nil, or_false] at hrow
    obtain rfl | rfl | rfl | rfl | rfl | rfl := hrow
    · exact h8
    · exact h8
    · exact h16
    · exact h16
    · exact h32
    · exact h32
  case illegal =>
    exact congrArg (andThen · fun t => .next (t.finish none)) (regWrite_spiCtrl_illegal h (spiCommand_eq_none hv))

/-- Settles O28. -/
theorem spiWriteInFlightIsOverrun : Obligations.SpiWriteInFlightIsOverrun := by
  intro s v h
  refine ⟨writeStatement_spi_overrun none h (by simp), writeStatement_spi_overrun none h (by simp), fun i hi => ?ctrl,
    fun i hi => ?setters⟩ <;> simp only [List.mem_cons, List.not_mem_nil, or_false] at hi
  case ctrl => obtain rfl | rfl | rfl | rfl := hi <;> exact writeStatement_spi_overrun none h (by simp)
  case setters =>
    obtain ⟨f, hexec⟩ : ∃ f, ∀ t : State, t.params = s.params → exec i t = rmw .spiConfig f none t := by
      obtain rfl | rfl := hi
      · exact ⟨putField s.params.spiDivLsb s.params.spiDivW v, fun t ht => by rw [← ht]; rfl⟩
      · exact ⟨putField s.params.spiModeLsb s.params.spiModeW v, fun t ht => by rw [← ht]; rfl⟩
    refine ⟨fun hidle => ⟨s.kept .spiConfig s.spi.config, (hexec s rfl).trans (rmw_idle_eq_kept f none hidle), ?_⟩, fun hph => ?_⟩
    · exact (hexec (s.kept .spiConfig s.spi.config) rfl).trans ((rmw_kept f none s).trans (writeStatement_spi_overrun (r := .spiConfig) none h (by simp)))
    · rw [hexec s rfl, rmw_of_rmwWrite f none hph]
      exact writeStatement_spi_overrun none h (by simp)

/-! ### The engine -/

theorem spiEngine_inflight {s : State} {u : SpiUnit} (answer : Word) (h : s.spi.inflight = some u) :
    spiEngine answer s = { s with
      spi := { s.spi with rxdata := unitOf u.width answer, inflight := none, busy := false, done := true }
      history := s.history ++ [.spiUnit u.width u.value (unitOf u.width answer)] } := by
  rw [spiEngine, h]

theorem spiEngine_quiet {s : State} (answer : Word) (h : s.spi.inflight = none) : spiEngine answer s = s := by
  rw [spiEngine, h]

/-- Settles O29. -/
theorem spiEngineExchangesOneUnit : Obligations.SpiEngineExchangesOneUnit := by
  intro s answer ms hf hr hm
  have hstep : step s = .next (spiEngine answer { s with moves := ms }) := step_device hf hr hm (by simp)
  refine ⟨fun h => ?_, fun u h => ⟨unitOf u.width answer, getLsbD_unitOf u.width answer, ?_⟩⟩
  · exact hstep.trans (congrArg _ (spiEngine_quiet (s := { s with moves := ms }) answer h))
  · exact hstep.trans (congrArg _ (spiEngine_inflight (s := { s with moves := ms }) answer h))

end Sys2Proof.Machine
end

section
/-! The unit transfer (43_spi.md R244), and the operations made of one (R245 to R247). -/

namespace Sys2Proof.Machine

/-! ### Its micro-steps -/

section
variable {s : State} {w : SpiWidth} {k : Word → State → State}

theorem xferSteps_tx (hph : s.cur.phase = .spiTx) (h : s.spi.inflight = none) :
    xferSteps w k s = .next ((({ s with spi := { s.spi with txdata := s.cur.loc.unit } } : State).emit
      [.regWr .spiTxdata s.cur.loc.unit]).goTo .spiCtrl s.cur.loc) := by
  rw [xferSteps, hph]
  exact congrArg (andThen · _) (regWrite_spiTxdata h)

theorem xferSteps_ctrl (hph : s.cur.phase = .spiCtrl) (hv : s.params.Valid) (h : s.spi.inflight = none) :
    xferSteps w k s = .next ((({ s with spi := s.spi.started w } : State).emit
      [.regWr .spiCtrl (s.params.spiStart w)]).goTo .spiPoll s.cur.loc) := by
  rw [xferSteps, hph]
  exact congrArg (andThen · _) (regWrite_spiCtrl h (spiCommand_start hv w))

/-- A turn of the poll while DONE reads 0 (40_register_access.md R142). -/
theorem xferSteps_wait (hph : s.cur.phase = .spiPoll) (hv : s.params.Valid) (hd : s.spi.done = false) :
    xferSteps w k s = .next (s.emit [.regRd .spiStatus (readValue s s.draws.head .spiStatus)]).takeDraw := by
  rw [xferSteps, hph]
  exact poll_miss (by rw [(spiStatus_bits hv _).2, hd]; simp)

theorem xferSteps_done (hph : s.cur.phase = .spiPoll) (hv : s.params.Valid) (hd : s.spi.done = true) :
    xferSteps w k s = .next (((s.emit [.regRd .spiStatus (readValue s s.draws.head .spiStatus)]).takeDraw).goTo .spiRx
      s.cur.loc) := by
  rw [xferSteps, hph]
  exact poll_hit (by rw [(spiStatus_bits hv _).2, hd])

theorem xferSteps_rx (hph : s.cur.phase = .spiRx) :
    xferSteps w k s = .next (k (unitOf w s.spi.rxdata) ((s.emit [.regRd .spiRxdata s.spi.rxdata]).takeDraw)) := by
  rw [xferSteps, hph]
  rfl

end

/-! ### Runs that only read -/

/-- The state after reads with the events `es` that left the draws `d`. -/
def State.afterReads (s : State) (es : List Event) (d : Draws) : State := { s with history := s.history ++ es, draws := d }

/-- One more read. -/
theorem State.afterReads_read (s : State) (es : List Event) (d : Draws) (e : Event) :
    ((s.afterReads es d).emit [e]).takeDraw = s.afterReads (es ++ [e]) d.next := by
  rw [State.afterReads, State.afterReads, ← List.append_assoc]
  rfl

/-- An event that is no register read. -/
def notRead : Event → Bool
  | .regRd _ _ => false
  | _ => true

/-- While DONE reads 0 the poll stays where it is, however many turns it makes (43_spi.md R258). -/
theorem play_spiPoll_wait {i : Instr} {w : SpiWidth} {k : Word → State → State} {s : State}
    (hi : ∀ es d, exec i (s.afterReads es d) = xferSteps w k (s.afterReads es d)) (hph : s.cur.phase = .spiPoll)
    (hv : s.params.Valid) (hd : s.spi.done = false) (n : Nat) :
    ∃ es d, play i (List.replicate n .host) s = .next (s.afterReads es d) ∧ es.filter notRead = [] := by
  induction n with
  | zero => exact ⟨[], s.draws, by rw [State.afterReads, List.append_nil]; rfl, rfl⟩
  | succ n ih =>
    obtain ⟨es, d, hrun, hes⟩ := ih
    refine ⟨es ++ [.regRd .spiStatus (readValue (s.afterReads es d) d.head .spiStatus)], d.next, (perform_succ i n s).trans ?_,
      by rw [List.filter_append, hes]; rfl⟩
    rw [perform, hrun, andThen_next, hi, xferSteps_wait (s := s.afterReads es d) hph hv hd, ← State.afterReads_read]
    rfl

/-! ### The transfer -/

theorem play_host_congr {i : Instr} {ms : List Move} {a b : State} (h : exec i a = exec i b) :
    play i (.host :: ms) a = play i (.host :: ms) b := by rw [play, play, h]

/-- A run that goes through goes through its first micro-step. -/
theorem exec_next_of_play {i : Instr} {ms : List Move} {s t : State} (h : play i (.host :: ms) s = .next t) :
    ∃ u, exec i s = .next u :=
  let ⟨u, hu, _⟩ := andThen_eq_next h
  ⟨u, hu⟩

/-- The transfer's unit is in flight and DONE is polled next (43_spi.md R244). -/
def State.awaiting (s : State) (w : SpiWidth) : State :=
  { s with
    spi := ({ s.spi with txdata := s.cur.loc.unit } : Spi).started w
    history := s.history ++ [.regWr .spiTxdata s.cur.loc.unit, .regWr .spiCtrl (s.params.spiStart w)]
    cur := { s.cur with phase := .spiPoll } }

/-- The transfer's unit has been exchanged for `answer`, the history longer by `es`, the draws `d`, the phase `ph`. -/
def State.exchanged (s : State) (w : SpiWidth) (answer : Word) (es : List Event) (d : Draws) (ph : Phase) : State :=
  { s with
    spi := { s.spi with
      txdata := s.cur.loc.unit, rxdata := unitOf w answer, inflight := none, busy := false, done := true }
    history := s.history ++ es
    draws := d
    cur := { s.cur with phase := ph } }

theorem spiEngine_awaiting (s : State) (w : SpiWidth) (answer : Word) (es : List Event) (d : Draws) :
    spiEngine answer ((s.awaiting w).afterReads es d) = s.exchanged w answer
      ([.regWr .spiTxdata s.cur.loc.unit, .regWr .spiCtrl (s.params.spiStart w)] ++ es ++
        [.spiUnit w (unitOf w s.cur.loc.unit) (unitOf w answer)]) d .spiPoll := by
  rw [spiEngine_inflight (u := { width := w, value := unitOf w s.cur.loc.unit }) answer rfl, State.exchanged, ← List.append_assoc,
    ← List.append_assoc]
  rfl

theorem State.exchanged_read (s : State) (w : SpiWidth) (answer : Word) (es : List Event) (d : Draws) (ph : Phase) (e : Event) :
    ((s.exchanged w answer es d ph).emit [e]).takeDraw = s.exchanged w answer (es ++ [e]) d.next ph := by
  rw [State.exchanged, State.exchanged, ← List.append_assoc]
  rfl

/-- The instruction performs the transfer's micro-steps with the locals `l`, under the parameters `p`. -/
def Transfers (i : Instr) (p : Params) (l : Locals) (w : SpiWidth) (k : Word → State → State) : Prop :=
  ∀ t : State, t.params = p → t.cur.loc = l → t.cur.phase ∈ [Phase.spiTx, .spiCtrl, .spiPoll, .spiRx] →
    exec i t = xferSteps w k t

section
variable {i : Instr} {s : State} {w : SpiWidth} {k : Word → State → State}
  (hi : Transfers i s.params s.cur.loc w k) (hph : s.cur.phase = .spiTx) (hv : s.params.Valid) (h : s.spi.inflight = none)
include hi hph hv h

theorem play_xfer_start : play i [.host, .host] s = .next (s.awaiting w) := by
  have htx := (hi s rfl rfl (by simp [hph])).trans (xferSteps_tx hph h)
  have hctrl {t : State} (hp : t.params = s.params) (hl : t.cur.loc = s.cur.loc) (ht : t.cur.phase = .spiCtrl)
      (hn : t.spi.inflight = none) := (hi t hp hl (by simp [ht])).trans (xferSteps_ctrl ht (hp ▸ hv) hn)
  rw [play, htx, andThen_next, play, hctrl, andThen_next, play]
  · simp only [State.awaiting, State.emit, State.goTo, List.append_assoc]
    rfl
  · rfl
  · rfl
  · rfl
  · exact h

/-- Without the engine's step the unit stays in flight and the poll goes on. -/
theorem play_xfer_wait (n : Nat) :
    ∃ es d, play i ([.host, .host] ++ List.replicate n .host) s = .next ((s.awaiting w).afterReads es d) ∧
      es.filter notRead = [] := by
  obtain ⟨es, d, hrun, hes⟩ := play_spiPoll_wait (s := s.awaiting w) (w := w) (k := k)
    (fun es d => hi _ rfl rfl (by simp [State.afterReads, State.awaiting])) rfl hv rfl n
  exact ⟨es, d, by rw [play_append, play_xfer_start hi hph hv h, andThen_next, hrun], hes⟩

/-- The whole transfer, the engine answering after any number of turns of the poll. -/
theorem play_xfer (n : Nat) (answer : Word) :
    ∃ es d, play i ([.host, .host] ++ List.replicate n .host ++ [.spi answer, .host, .host]) s =
        .next (k (unitOf w answer) (s.exchanged w answer es d .spiRx)) ∧
      es.filter notRead = [.regWr .spiTxdata s.cur.loc.unit, .regWr .spiCtrl (s.params.spiStart w),
        .spiUnit w (unitOf w s.cur.loc.unit) (unitOf w answer)] := by
  obtain ⟨es, d, hrun, hes⟩ := play_xfer_wait hi hph hv h n
  have hdone (es : List Event) (d : Draws) : ∃ v, exec i (s.exchanged w answer es d .spiPoll) =
      .next (s.exchanged w answer (es ++ [.regRd .spiStatus v]) d.next .spiRx) :=
    ⟨_, ((hi (s.exchanged w answer es d .spiPoll) rfl rfl (by simp [State.exchanged])).trans (xferSteps_done rfl hv rfl)).trans
      (by rw [State.exchanged_read]; rfl)⟩
  have hrx (es : List Event) (d : Draws) : exec i (s.exchanged w answer es d .spiRx) =
      .next (k (unitOf w answer) (s.exchanged w answer (es ++ [.regRd .spiRxdata (unitOf w answer)]) d.next .spiRx)) := by
    rw [hi (s.exchanged w answer es d .spiRx) rfl rfl (by simp [State.exchanged]), xferSteps_rx rfl, State.exchanged_read,
      show (s.exchanged w answer es d .spiRx).spi.rxdata = unitOf w answer from rfl, unitOf_unitOf]
  obtain ⟨v, hpoll⟩ := hdone ([.regWr .spiTxdata s.cur.loc.unit, .regWr .spiCtrl (s.params.spiStart w)] ++ es ++
    [.spiUnit w (unitOf w s.cur.loc.unit) (unitOf w answer)]) d
  have hrest := play_host (ms := [.host]) hpoll (play_host (hrx _ _) rfl)
  have hengine (t : State) : play i [.spi answer, .host, .host] t = play i [.host, .host] (spiEngine answer t) := rfl
  have hplay := (play_append i ([.host, .host] ++ List.replicate n .host) [.spi answer, .host, .host] s).trans
    (by rw [hrun, andThen_next, hengine, spiEngine_awaiting, hrest])
  exact ⟨_, _, hplay, by simp only [List.filter_append, hes]; rfl⟩

end

/-! ### The operations of one unit -/

theorem unitOf_of_lt {w : SpiWidth} {x : Word} (h : x.toNat < 2 ^ SpiWidth.bits w) : unitOf w x = x := by
  apply BitVec.eq_of_getLsbD_eq
  intro b hb
  rw [getLsbD_unitOf _ _ _ hb]
  by_cases hbw : b < SpiWidth.bits w
  · simp [hbw]
  · have : x.getLsbD b = false := Nat.testBit_lt_two_pow (h.trans_le (Nat.pow_le_pow_right (by omega) (Nat.not_lt.1 hbw)))
    simp [this]

theorem SpiWidth.bits_le (w : SpiWidth) : SpiWidth.bits w ≤ 32 := by cases w <;> decide

/-- The locals of a transfer of one unit. -/
def sendingLocals (sent : Word) : Locals := { Locals.none with unit := sent }

/-- SPI.XFER8, XFER16 and XFER32, as instructions of their width. -/
def xferInstr (tx : Word) : SpiWidth → Instr
  | .w8 => .spiXfer8 tx
  | .w16 => .spiXfer16 tx
  | .w32 => .spiXfer32 tx

theorem exec_xferInstr (tx : Word) (w : SpiWidth) (s : State) : exec (xferInstr tx w) s = xferOne w tx s := by cases w <;> rfl

theorem xferInstr_transfers (tx : Word) (w : SpiWidth) (p : Params) (l : Locals) :
    Transfers (xferInstr tx w) p l w fun r t => t.finish (some r) := by
  intro t _ _ hph
  rw [exec_xferInstr, xferOne]
  simp only [List.mem_cons, List.not_mem_nil, or_false] at hph
  obtain h | h | h | h := hph <;> rw [h]

/-- The first micro-step is that of the transfer of the operand, or of a free unit (notes/assumptions/26.md). -/
theorem exec_xferInstr_idle {s : State} (tx : Word) (w : SpiWidth) (hidle : s.cur.phase = .idle) :
    ∃ (sent : Word) (d : Draws), sent.toNat < 2 ^ SpiWidth.bits w ∧ (tx.toNat < 2 ^ SpiWidth.bits w → sent = tx) ∧
      exec (xferInstr tx w) s = exec (xferInstr tx w) (({ s with draws := d } : State).goTo .spiTx (sendingLocals sent)) := by
  have hlt := s.operand_lt (SpiWidth.bits_le w) tx
  refine ⟨s.operand (SpiWidth.bits w) tx, (s.afterOperand (SpiWidth.bits w) tx).draws, hlt, State.operand_of_fits, ?_⟩
  rw [xferInstr_transfers tx w s.params (sendingLocals _) (({ s with draws := _ } : State).goTo .spiTx (sendingLocals _)) rfl rfl
    (by simp), exec_xferInstr, xferOne, hidle, ← State.afterOperand_eq]
  rw [withOperand_eq, xferFrom, unitOf_of_lt hlt]
  rfl

theorem mem_xferInstr {tx : Word} {row : Instr × SpiWidth}
    (h : row ∈ [(Instr.spiXfer8 tx, SpiWidth.w8), (.spiXfer16 tx, .w16), (.spiXfer32 tx, .w32)]) :
    ∃ w, row = (xferInstr tx w, w) := by
  simp only [List.mem_cons, List.not_mem_nil, or_false] at h
  obtain rfl | rfl | rfl := h
  · exact ⟨.w8, rfl⟩
  · exact ⟨.w16, rfl⟩
  · exact ⟨.w32, rfl⟩

/-- Settles O30. -/
theorem spiTransferReturnsTheAnswer : Obligations.SpiTransferReturnsTheAnswer := by
  intro s tx answer k hv hidle h row hrow
  obtain ⟨w, rfl⟩ := mem_xferInstr hrow
  obtain ⟨sent, d₀, hlt, hsent, hexec⟩ := exec_xferInstr_idle tx w hidle
  have htransfers := xferInstr_transfers tx w s.params (sendingLocals sent)
  obtain ⟨es, d, hrun, hes⟩ := play_xfer (s := ({ s with draws := d₀ } : State).goTo .spiTx (sendingLocals sent))
    htransfers rfl hv h k answer
  have hplay := (play_host_congr hexec).trans hrun
  refine ⟨exec_next_of_play hplay, sent, _, es, hlt, hsent, hplay, rfl, ?_, ?_⟩
  · refine hes.trans ?_
    show [_, _, Event.spiUnit w (unitOf w sent) _] = _
    rw [unitOf_of_lt hlt]
    rfl
  · rintro rfl
    exact congrArg some (unitOf_of_lt hlt)

/-- Settles O31. -/
theorem spiTransferWaitsForDone : Obligations.SpiTransferWaitsForDone := by
  intro s tx k hv hidle h i hi
  obtain ⟨w, rfl⟩ : ∃ w, i = xferInstr tx w := by
    simp only [List.mem_cons, List.not_mem_nil, or_false] at hi
    obtain rfl | rfl | rfl := hi
    · exact ⟨.w8, rfl⟩
    · exact ⟨.w16, rfl⟩
    · exact ⟨.w32, rfl⟩
  obtain ⟨sent, d₀, -, -, hexec⟩ := exec_xferInstr_idle tx w hidle
  obtain ⟨es, d, hrun, -⟩ := play_xfer_wait (s := ({ s with draws := d₀ } : State).goTo .spiTx (sendingLocals sent))
    (xferInstr_transfers tx w _ _) rfl hv h k
  exact ⟨_, (play_host_congr hexec).trans hrun, rfl, rfl, rfl⟩

end Sys2Proof.Machine
end

section
/-! Multi-unit transfers (43_spi.md R248 to R250) and the checks of SPI.BURST (R251). -/

namespace Sys2Proof.Machine

/-! ### Buffers -/

/-- A byte of the buffer that lies in a register window makes the buffer overlap it (20_memory.md R84). -/
theorem overlapsWindow_of_byte {b : Bases} {a len x : Nat} (ha : a ≤ x) (hx : x < a + len)
    (hw : ∃ win ∈ b.windows, win.1 ≤ x ∧ x < win.1 + win.2) : overlapsWindow b a len = true := by
  obtain ⟨win, hmem, hle, hlt⟩ := hw
  simp only [overlapsWindow, Bool.and_eq_true, decide_eq_true_eq, List.any_eq_true]
  exact ⟨by omega, win, hmem, by omega, by omega⟩

theorem SpiWidth.bytes_pos (w : SpiWidth) : 0 < SpiWidth.bytes w := by cases w <;> decide

theorem unitAddress_mod (buf : Word) (w : SpiWidth) (i : Nat) :
    unitAddress buf w i % SpiWidth.bytes w = buf.toNat % SpiWidth.bytes w := Nat.add_mul_mod_self_right ..

section
variable {a : Nat} {w : SpiWidth} {s : State}

theorem memRead_misaligned (k : Word → Result) (h : a % SpiWidth.bytes w ≠ 0) : memRead a w s k = .refused .misalignedBuffer :=
  if_pos h

theorem memWrite_misaligned (v : Word) (h : a % SpiWidth.bytes w ≠ 0) : memWrite a w v s = .refused .misalignedBuffer := if_pos h

theorem memRead_aligned (k : Word → Result) (h : a % SpiWidth.bytes w = 0) (ha : a + SpiWidth.bytes w ≤ 2 ^ 32) :
    memRead a w s k = k (s.mem.load a w) := (if_neg (by simpa using h)).trans (if_neg (Nat.not_lt.2 ha))

theorem memWrite_aligned (v : Word) (h : a % SpiWidth.bytes w = 0) (ha : a + SpiWidth.bytes w ≤ 2 ^ 32) :
    memWrite a w v s = .next { s with mem := s.mem.store a w v } := (if_neg (by simpa using h)).trans (if_neg (Nat.not_lt.2 ha))

end

/-- A loaded unit has no bits above its width. -/
theorem unitOf_load (m : Memory) (a : Nat) (w : SpiWidth) : unitOf w (m.load a w) = m.load a w := by
  have hbytes := byteOf_wordOfBytes (m.read a) (m.read (a + 1)) (m.read (a + 2)) (m.read (a + 3))
  obtain ⟨h0, h1, -, -⟩ := hbytes
  have hload : ∃ v, m.load a w = unitOf w v := by
    refine ⟨wordOfBytes (m.read a) (m.read (a + 1)) (m.read (a + 2)) (m.read (a + 3)), ?_⟩
    cases w with
    | w8 => rw [← wordOfBytes_byte0, h0]; rfl
    | w16 => rw [← wordOfBytes_byte01, h0, h1]; rfl
    | w32 => rw [unitOf_w32]; rfl
  obtain ⟨v, hv⟩ := hload
  rw [hv, unitOf_unitOf]

theorem toNat_unitOf_lt (w : SpiWidth) (v : Word) : (unitOf w v).toNat < 2 ^ SpiWidth.bits w := by
  have hle := Nat.and_le_right (n := v.toNat) (m := (widthMask w).toNat)
  rw [← BitVec.toNat_and] at hle
  refine lt_of_le_of_lt hle ?_
  cases w <;> decide

/-- The bytes of a unit are the low bytes of its word. -/
theorem byteOf_unitOf {w : SpiWidth} (v : Word) {k : Nat} (hk : k < SpiWidth.bytes w) : byteOf (unitOf w v) k = byteOf v k := by
  apply BitVec.eq_of_getLsbD_eq
  intro b hb
  have hfit : 8 * k + b < SpiWidth.bits w ∧ SpiWidth.bits w ≤ 32 := by cases w <;> simp only [SpiWidth.bytes, SpiWidth.bits] at hk ⊢ <;> omega
  simp only [byteOf, BitVec.getLsbD_extractLsb', getLsbD_unitOf w v _ (hfit.1.trans_le hfit.2), hfit.1, decide_true, Bool.true_and]

/-! ### The checks of the multi-unit transfers -/

/-- SPI.XFERN8, XFERN16 and XFERN32, as instructions of their width. -/
def xfernInstr (txbuf rxbuf : Option Word) (count : Word) : SpiWidth → Instr
  | .w8 => .spiXfern8 txbuf rxbuf count
  | .w16 => .spiXfern16 txbuf rxbuf count
  | .w32 => .spiXfern32 txbuf rxbuf count

section
variable {txbuf rxbuf : Option Word} {count : Word} {w : SpiWidth} {s : State}

theorem exec_xfernInstr : exec (xfernInstr txbuf rxbuf count w) s = xferMany w txbuf rxbuf count s := by cases w <;> rfl

theorem toInt_toNat_of_pos (h : 0 < count.toInt) : count.toInt.toNat = count.toNat := by
  rw [BitVec.toInt_eq_toNat_cond] at h ⊢
  split at h <;> omega

theorem xferMany_idle (hidle : s.cur.phase = .idle) (h : 0 < count.toInt) : xferMany w txbuf rxbuf count s =
    if bufferOverlaps s.params.bases txbuf (count.toNat * SpiWidth.bytes w)
        || bufferOverlaps s.params.bases rxbuf (count.toNat * SpiWidth.bytes w) then .refused .misalignedBuffer
    else beginUnit w txbuf rxbuf count.toNat 0 s := by
  rw [xferMany, hidle, toInt_toNat_of_pos h]
  exact if_neg (Int.not_le.2 h)

theorem xferMany_spiUnit (hph : s.cur.phase = .spiUnit) :
    xferMany w txbuf rxbuf count s = beginUnit w txbuf rxbuf count.toInt.toNat s.cur.loc.idx s := by
  rw [xferMany, hph]

theorem xferMany_spiStore (hph : s.cur.phase = .spiStore) :
    xferMany w txbuf rxbuf count s = storeUnit w rxbuf count.toInt.toNat s := by
  rw [xferMany, hph]

theorem beginUnit_misaligned {a : Word} (n i : Nat) (h : a.toNat % SpiWidth.bytes w ≠ 0) :
    beginUnit w (some a) rxbuf n i s = .refused .misalignedBuffer := by
  rw [beginUnit, memRead_misaligned _ (by rwa [unitAddress_mod])]

end

/-- Settles O32. -/
theorem spiMultiUnitChecksItsOperands : Obligations.SpiMultiUnitChecksItsOperands := by
  intro s txbuf rxbuf count row hrow
  obtain ⟨w, rfl⟩ : ∃ w, row = (xfernInstr txbuf rxbuf count w, w) := by
    simp only [List.mem_cons, List.not_mem_nil, or_false] at hrow
    obtain rfl | rfl | rfl := hrow
    · exact ⟨.w8, rfl⟩
    · exact ⟨.w16, rfl⟩
    · exact ⟨.w32, rfl⟩
  simp only [exec_xfernInstr]
  refine ⟨fun hidle hn => ?none, fun a x hidle hn ha hle hlt hw => ?window, fun a hph htx hmis => ?load, fun a hph hrx hmis => ?store⟩
  case none =>
    rw [xferMany, hidle]
    exact if_pos hn
  case window =>
    have hover := overlapsWindow_of_byte hle hlt hw
    rw [xferMany_idle hidle hn, if_pos]
    obtain rfl | rfl := ha <;> simp [bufferOverlaps, hover]
  case load =>
    subst htx
    obtain ⟨hidle, hn⟩ | hunit := hph
    · rw [xferMany_idle hidle hn, beginUnit_misaligned _ _ hmis, ite_self]
    · rw [xferMany_spiUnit hunit, beginUnit_misaligned _ _ hmis]
  case store =>
    subst hrx
    rw [xferMany_spiStore hph, storeUnit, memWrite_misaligned _ (by rwa [unitAddress_mod]), andThen_refused]

/-! ### One unit of a multi-unit transfer -/

theorem xfernInstr_transfers (txbuf rxbuf : Option Word) (count : Word) (w : SpiWidth) (p : Params) (l : Locals) :
    Transfers (xfernInstr txbuf rxbuf count w) p l w (unitReceived rxbuf count.toInt.toNat l.idx) := by
  intro t _ hl hph
  rw [exec_xfernInstr, xferMany, ← hl]
  simp only [List.mem_cons, List.not_mem_nil, or_false] at hph
  obtain h | h | h | h := hph <;> rw [h]

/-- The memory after the received unit `r` has been stored as unit `i` of the receive buffer, if there is one. -/
def storedUnit (m : Memory) (rxbuf : Option Word) (w : SpiWidth) (i : Nat) (r : Word) : Memory :=
  match rxbuf with
  | some b => m.store (unitAddress b w i) w r
  | none => m

/-- The locals of a transfer of unit `i`. -/
def unitLocals (i : Nat) (sent : Word) : Locals := { Locals.none with idx := i, unit := sent }

/-- Unit `i` begins: what is sent is the unit of the transmit buffer, or the fill value. -/
theorem play_beginUnit {txbuf rxbuf : Option Word} {count : Word} {w : SpiWidth} {s : State} {i : Nat}
    (hexec : exec (xfernInstr txbuf rxbuf count w) s = beginUnit w txbuf rxbuf count.toInt.toNat i s)
    (htx : ∀ a, txbuf = some a → a.toNat % SpiWidth.bytes w = 0 ∧ a.toNat + (i + 1) * SpiWidth.bytes w ≤ 2 ^ 32) :
    ∃ sent : Word, unitOf w sent = sent ∧
      (∀ a, txbuf = some a → sent = s.mem.load (unitAddress a w i) w) ∧ (txbuf = none → sent = widthMask w) ∧
      ∀ ms, play (xfernInstr txbuf rxbuf count w) ((if txbuf.isSome then [.host] else []) ++ .host :: ms) s =
        play (xfernInstr txbuf rxbuf count w) (.host :: ms) (s.goTo .spiTx (unitLocals i sent)) := by
  cases txbuf with
  | some a =>
    obtain ⟨hal, hend⟩ := htx a rfl
    refine ⟨s.mem.load (unitAddress a w i) w, unitOf_load .., by rintro _ ⟨⟩; rfl, by simp, fun ms => play_host (hexec.trans ?_) rfl⟩
    rw [beginUnit, memRead_aligned _ (by rwa [unitAddress_mod]) (by rw [unitAddress]; linarith)]
    rfl
  | none =>
    have hmask : unitOf w (widthMask w) = widthMask w := BitVec.and_self
    refine ⟨widthMask w, hmask, by simp, fun _ => rfl, fun ms => play_host_congr (hexec.trans ?_)⟩
    have htransfers := xfernInstr_transfers none rxbuf count w s.params (unitLocals i (widthMask w))
      (s.goTo .spiTx (unitLocals i (widthMask w))) rfl rfl (by simp)
    rw [htransfers, beginUnit, xferFrom, hmask]
    rfl

/-- Neither the next unit nor the end looks at the micro-step or the locals before it. -/
theorem nextUnit_goTo (n i : Nat) (s : State) (ph : Phase) (l : Locals) : nextUnit n i (s.goTo ph l) = nextUnit n i s := by
  unfold nextUnit
  split <;> rfl

theorem nextUnit_frame (n i : Nat) (s : State) : nextUnit n i s = { s with cur := (nextUnit n i s).cur } := by
  unfold nextUnit
  split <;> rfl

/-- The received unit is stored, or dropped, and the next unit begins or the operation ends. -/
theorem play_unitReceived {txbuf rxbuf : Option Word} {count : Word} {w : SpiWidth} {u : State} {i : Nat} {r : Word}
    (hrx : ∀ b, rxbuf = some b → b.toNat % SpiWidth.bytes w = 0 ∧ b.toNat + (i + 1) * SpiWidth.bytes w ≤ 2 ^ 32) :
    play (xfernInstr txbuf rxbuf count w) (if rxbuf.isSome then [.host] else []) (unitReceived rxbuf count.toInt.toNat i r u) =
      .next (nextUnit count.toInt.toNat i { u with mem := storedUnit u.mem rxbuf w i r }) := by
  cases rxbuf with
  | none => rfl
  | some b =>
    obtain ⟨hal, hend⟩ := hrx b rfl
    refine play_host (exec_xfernInstr.trans ((xferMany_spiStore rfl).trans ?_)) rfl
    rw [storeUnit, memWrite_aligned _ (by rwa [unitAddress_mod]) (by simp only [unitReceived, unitAddress, State.goTo_cur]; linarith), andThen_next]
    exact congrArg Host.Outcome.next
      (nextUnit_goTo _ i { u with mem := u.mem.store (unitAddress b w i) w r } .spiStore (unitLocals i r))

/-- Settles O33. -/
theorem spiMultiUnitExchangesEachUnit : Obligations.SpiMultiUnitExchangesEachUnit := by
  intro s w txbuf rxbuf count answer i hv h hi hstart hbufs op hop
  obtain rfl : op = xfernInstr txbuf rxbuf count w := by rw [hop]; cases w <;> rfl
  have hpos : 0 < count.toInt := by omega
  have hexec : exec (xfernInstr txbuf rxbuf count w) s = beginUnit w txbuf rxbuf count.toInt.toNat i s := by
    rw [exec_xfernInstr]
    obtain ⟨hidle, rfl, ho1, ho2⟩ | ⟨hunit, rfl⟩ := hstart
    · rw [xferMany_idle hidle hpos, ho1, ho2, toInt_toNat_of_pos hpos]
      rfl
    · exact xferMany_spiUnit hunit
  obtain ⟨sent, hsent, hload, hfill, hbegin⟩ := play_beginUnit hexec fun a ha => hbufs a (.inl ha)
  obtain ⟨es, d, hrun, hes⟩ := play_xfer (s := s.goTo .spiTx (unitLocals i sent))
    (xfernInstr_transfers txbuf rxbuf count w s.params (unitLocals i sent)) rfl hv h 0 answer
  have hend := play_unitReceived (txbuf := txbuf) (count := count) (r := unitOf w answer)
    (u := (s.goTo .spiTx (unitLocals i sent)).exchanged w answer es d .spiRx) fun b hb => hbufs b (.inr hb)
  have hunit : Event.spiUnit w sent (unitOf w answer) ∈ es := by
    refine List.mem_of_mem_filter (p := notRead) ?_
    rw [hes, show unitOf w (s.goTo .spiTx (unitLocals i sent)).cur.loc.unit = sent from hsent]
    simp
  obtain ⟨t, ht⟩ : ∃ t, nextUnit count.toInt.toNat i { (s.goTo .spiTx (unitLocals i sent)).exchanged w answer es d .spiRx with
    mem := storedUnit s.mem rxbuf w i (unitOf w answer) } = t := ⟨_, rfl⟩
  have hplay : play (xfernInstr txbuf rxbuf count w) ((if txbuf.isSome then [.host] else []) ++
      [.host, .host, .spi answer, .host, .host] ++ (if rxbuf.isSome then [.host] else [])) s = .next t := by
    rw [play_append, hbegin]
    exact ((congrArg (andThen · _) hrun).trans hend).trans (congrArg _ ht)
  have hfirst : ∃ u, exec (xfernInstr txbuf rxbuf count w) s = .next u := by cases txbuf <;> exact exec_next_of_play hplay
  have hframe : t = { (s.goTo .spiTx (unitLocals i sent)).exchanged w answer es d .spiRx with
      mem := storedUnit s.mem rxbuf w i (unitOf w answer), cur := t.cur } := by
    rw [← ht]; exact nextUnit_frame ..
  have hmem : t.mem = storedUnit s.mem rxbuf w i (unitOf w answer) := by rw [hframe]
  refine ⟨t, es, hfirst, hplay, ?frame, ?quiet, fun b hb => ?stored, fun hb => ?dropped,
    ⟨sent, fun a ha => ⟨?fits, fun k hk => ?loaded⟩, hfill, hunit⟩, ?kind, ?raising, fun hmore => ?next, fun hlast => ?last⟩
  case frame => rw [hframe]; rfl
  case quiet => rw [hframe]; rfl
  case stored =>
    subst hb
    have hend := (hbufs b (.inr rfl)).2
    have hadd : (i + 1) * SpiWidth.bytes w = i * SpiWidth.bytes w + SpiWidth.bytes w := Nat.succ_mul ..
    refine ⟨hmem, fun hwf k hk => ?_, fun x hx => ?_⟩
    · rw [hmem]
      exact (Memory.read_store_byte hwf (by rw [unitAddress, Config.addressSpace]; omega) hk).trans (byteOf_unitOf answer hk)
    · rw [hmem]
      exact Memory.read_store_other (by rw [unitAddress]; omega)
  case dropped => rw [hmem, hb]; rfl
  case fits => rw [← hsent]; exact toNat_unitOf_lt w sent
  case loaded => rw [hload a ha]; exact Memory.byteOf_load hk
  case kind => rw [← ht, nextUnit]; split <;> rfl
  case raising => rw [← ht, nextUnit]; split <;> rfl
  case next =>
    rw [← ht, nextUnit, if_pos (by omega)]
    exact ⟨rfl, rfl, rfl⟩
  case last =>
    rw [← ht, nextUnit, if_neg (by omega)]
    exact ⟨rfl, rfl, rfl⟩

/-! ### The checks of SPI.BURST -/

theorem burstWidth_eq_none {p : Params} {c : Word}
    (h : fieldValue p.spiDivLsb p.spiDivW c ∉ [p.burstDivW2, p.burstDivW4]) : burstWidth p c = none := by
  simp only [List.mem_cons, List.not_mem_nil, or_false, not_or] at h
  exact (if_neg h.1).trans (if_neg h.2)

theorem burstWidth_eq_some {p : Params} {c : Word} {w : SpiWidth} (hne : p.burstDivW4 ≠ p.burstDivW2)
    (h : w = .w16 ∧ fieldValue p.spiDivLsb p.spiDivW c = p.burstDivW2 ∨
      w = .w32 ∧ fieldValue p.spiDivLsb p.spiDivW c = p.burstDivW4) : burstWidth p c = some w := by
  obtain ⟨rfl, h⟩ | ⟨rfl, h⟩ := h
  · exact if_pos h
  · exact (if_neg (by rw [h]; exact hne)).trans (if_pos h)

section
variable {s : State} {buf len : Word} {w : SpiWidth} (body : SpiWidth → State → Result)

theorem burstChecked_length (hw : burstWidth s.params s.cur.loc.v = some w) (h : len.toNat % SpiWidth.bytes w ≠ 0) :
    burstChecked buf len body s = returnNow (some Config.error) s := by
  rw [burstChecked, hw]
  exact if_pos h

theorem burstChecked_buffer (hw : burstWidth s.params s.cur.loc.v = some w) (hl : len.toNat % SpiWidth.bytes w = 0)
    (h : buf.toNat % SpiWidth.bytes w ≠ 0 ∨ overlapsWindow s.params.bases buf.toNat len.toNat = true) :
    burstChecked buf len body s = .refused .misalignedBuffer := by
  rw [burstChecked, hw]
  exact (if_neg (by simpa using hl)).trans (if_pos (by simpa using h))

theorem burstChecked_good (hw : burstWidth s.params s.cur.loc.v = some w) (hl : len.toNat % SpiWidth.bytes w = 0)
    (hb : buf.toNat % SpiWidth.bytes w = 0) (ho : overlapsWindow s.params.bases buf.toNat len.toNat = false) :
    burstChecked buf len body s = body w s := by
  rw [burstChecked, hw]
  exact (if_neg (by simpa using hl)).trans (if_neg (by simp [hb, ho]))

end

section
variable {s : State} {buf len : Word}

/-- SPI.BURST reads CONFIG and keeps it (43_spi.md R251). -/
def State.burstBegun (s : State) : State :=
  ((s.emit [.regRd .spiConfig s.spi.config]).takeDraw).goTo .burstUnit { Locals.none with v := s.spi.config }

theorem exec_spiBurst_idle (h : s.cur.phase = .idle) : exec (.spiBurst buf len) s = .next s.burstBegun := by
  rw [show exec (.spiBurst buf len) s = execSpiBurst buf len s from rfl, execSpiBurst, h]
  rfl

theorem exec_spiBurst_unit (h : s.cur.phase = .burstUnit) :
    exec (.spiBurst buf len) s = burstChecked buf len (fun w => burstNext w buf len) s := by
  rw [show exec (.spiBurst buf len) s = execSpiBurst buf len s from rfl, execSpiBurst, h]

/-- After the last unit, with no final wait. -/
theorem burstNext_return {w : SpiWidth} (hlast : len.toNat / SpiWidth.bytes w ≤ s.cur.loc.idx) (hf : s.params.burstFinalWait = false) :
    burstNext w buf len s = .next (s.finish (some 0#32)) :=
  (if_neg (Nat.not_lt.2 hlast)).trans (if_neg (by simp [hf]))

end

/-- Settles O34. -/
theorem spiBurstChecksBeforeAnyWrite : Obligations.SpiBurstChecksBeforeAnyWrite := by
  intro s buf len hidle
  refine ⟨s.burstBegun, exec_spiBurst_idle hidle, rfl, fun hdiv => ?divider, fun w hw => ?width⟩
  case divider =>
    rw [exec_spiBurst_unit rfl, burstChecked, show burstWidth s.burstBegun.params s.burstBegun.cur.loc.v = none from burstWidth_eq_none hdiv]
    rfl
  case width =>
    have hbw : burstWidth s.burstBegun.params s.burstBegun.cur.loc.v = some w := by
      obtain ⟨rfl, h⟩ | ⟨rfl, h, hne⟩ := hw
      · exact if_pos h
      · exact burstWidth_eq_some hne (.inr ⟨rfl, h⟩)
    rw [exec_spiBurst_unit rfl]
    refine ⟨fun h => burstChecked_length _ hbw h, fun hl hb => burstChecked_buffer _ hbw hl (.inl hb),
      fun x hl hle hlt hwin => burstChecked_buffer _ hbw hl (.inr (overlapsWindow_of_byte hle hlt hwin)), fun hl hb hf => ?_⟩
    subst hl
    rw [burstChecked_good _ hbw (by simp) hb (by simp [overlapsWindow]), burstNext_return (s := s.burstBegun) (by simp) hf]

end Sys2Proof.Machine
end

section
/-! SPI.BURST (43_spi.md R251, R256): its micro-steps, and the invariant of a run whose engine absorbs every unit. -/

namespace Sys2Proof.Machine

/-! ### Its micro-steps -/

/-- A burst of units of width `w` that passes the checks of 43_spi.md R251, under the word `config` of SPI.CONFIG. -/
structure BurstGood (p : Params) (config buf len : Word) (w : SpiWidth) : Prop where
  width : burstWidth p config = some w
  length : len.toNat % SpiWidth.bytes w = 0
  aligned : buf.toNat % SpiWidth.bytes w = 0
  clear : overlapsWindow p.bases buf.toNat len.toNat = false
  fits : buf.toNat + len.toNat ≤ 2 ^ 32

/-- The `k`-th unit of the buffer. -/
def bufferUnit (m : Memory) (buf : Word) (w : SpiWidth) (k : Nat) : Word := m.load (buf.toNat + k * SpiWidth.bytes w) w

/-- The units of a buffer whose length is a multiple of the width end inside it. -/
theorem succ_unit_le {len : Word} {w : SpiWidth} {i : Nat} (hl : len.toNat % SpiWidth.bytes w = 0)
    (hi : i * SpiWidth.bytes w < len.toNat) : i * SpiWidth.bytes w + SpiWidth.bytes w ≤ len.toNat := by
  cases w <;> simp only [SpiWidth.bytes] at hl hi ⊢ <;> omega

theorem lt_units_iff {len : Word} {w : SpiWidth} {i : Nat} (hl : len.toNat % SpiWidth.bytes w = 0) :
    i < len.toNat / SpiWidth.bytes w ↔ i * SpiWidth.bytes w < len.toNat := by
  cases w <;> simp only [SpiWidth.bytes] at hl ⊢ <;> omega

section
variable {s : State} {buf len : Word} {w : SpiWidth} (hg : BurstGood s.params s.cur.loc.v buf len w)
include hg

theorem exec_spiBurst_next (hph : s.cur.phase = .burstUnit) : exec (.spiBurst buf len) s = burstNext w buf len s :=
  (exec_spiBurst_unit hph).trans (burstChecked_good _ hg.width hg.length hg.aligned hg.clear)

theorem exec_spiBurst_load (hph : s.cur.phase = .burstUnit) (hi : s.cur.loc.idx * SpiWidth.bytes w < len.toNat) :
    exec (.spiBurst buf len) s =
      .next (s.goTo .burstTx { s.cur.loc with unit := bufferUnit s.mem buf w s.cur.loc.idx }) := by
  have hend := succ_unit_le hg.length hi
  have hfits := hg.fits
  rw [exec_spiBurst_next hg hph, burstNext]
  refine (if_pos ((lt_units_iff hg.length).2 hi)).trans (memRead_aligned _ ((unitAddress_mod ..).trans hg.aligned) ?_)
  rw [unitAddress]
  omega

theorem exec_spiBurst_return (hph : s.cur.phase = .burstUnit) (hi : len.toNat = s.cur.loc.idx * SpiWidth.bytes w)
    (hf : s.params.burstFinalWait = false) : exec (.spiBurst buf len) s = .next (s.finish (some 0#32)) := by
  rw [exec_spiBurst_next hg hph]
  exact burstNext_return (by rw [hi, Nat.mul_div_cancel _ (SpiWidth.bytes_pos w)]) hf

theorem exec_spiBurst_ctrl (hv : s.params.Valid) (hph : s.cur.phase = .burstCtrl) (h : s.spi.inflight = none) :
    exec (.spiBurst buf len) s = .next ((({ s with spi := s.spi.started w } : State).emit
      [.regWr .spiCtrl (s.params.spiStart w)]).goTo .burstUnit { s.cur.loc with idx := s.cur.loc.idx + 1 }) := by
  rw [show exec (.spiBurst buf len) s = execSpiBurst buf len s from rfl, execSpiBurst, hph]
  refine (burstChecked_good _ hg.width hg.length hg.aligned hg.clear).trans ?_
  rw [regWrite_spiCtrl h (spiCommand_start hv w), andThen_next]

end

section
variable {s : State} {buf len : Word}

theorem exec_spiBurst_tx (hph : s.cur.phase = .burstTx) (h : s.spi.inflight = none) :
    exec (.spiBurst buf len) s = .next ((({ s with spi := { s.spi with txdata := s.cur.loc.unit } } : State).emit
      [.regWr .spiTxdata s.cur.loc.unit]).goTo .burstCtrl s.cur.loc) := by
  rw [show exec (.spiBurst buf len) s = execSpiBurst buf len s from rfl, execSpiBurst, hph]
  exact congrArg (andThen · _) (regWrite_spiTxdata h)

theorem exec_spiBurst_tx_overrun (hph : s.cur.phase = .burstTx) (h : s.spi.inflight.isSome = true) :
    exec (.spiBurst buf len) s = .fault (.spiOverrun .spiTxdata) := by
  rw [show exec (.spiBurst buf len) s = execSpiBurst buf len s from rfl, execSpiBurst, hph]
  exact congrArg (andThen · _) (if_pos h)

/-- One turn of the final poll (43_spi.md R251), from its own micro-step. -/
theorem exec_spiBurst_poll (hph : s.cur.phase = .burstPoll) :
    exec (.spiBurst buf len) s = poll .spiStatus s.params.spiDoneBit true (fun _ t => t.finish (some Config.ok)) s := by
  rw [show exec (.spiBurst buf len) s = execSpiBurst buf len s from rfl, execSpiBurst, hph]

end

/-- A turn of a poll of DONE. -/
theorem poll_done {s : State} (hv : s.params.Valid) (hit : State → State) :
    ∃ v : Word, poll .spiStatus s.params.spiDoneBit true (fun _ t => hit t) s =
      .next (if s.spi.done then hit ((s.emit [.regRd .spiStatus v]).takeDraw) else (s.emit [.regRd .spiStatus v]).takeDraw) := by
  refine ⟨readValue s s.draws.head .spiStatus, ?_⟩
  have hbit := (spiStatus_bits hv s.draws.head).2
  cases hd : s.spi.done with
  | true => exact poll_hit (hbit.trans hd)
  | false => exact poll_miss (by rw [hbit, hd]; simp)

/-- After the last unit with a final wait. -/
theorem exec_spiBurst_wait {s : State} {buf len : Word} {w : SpiWidth} (hg : BurstGood s.params s.cur.loc.v buf len w)
    (hv : s.params.Valid) (hi : len.toNat = s.cur.loc.idx * SpiWidth.bytes w) (hf : s.params.burstFinalWait = true) {ph : Phase}
    (hph : ph ∈ [Phase.burstUnit, .burstPoll]) :
    ∃ v : Word, exec (.spiBurst buf len) (s.goTo ph s.cur.loc) = .next (if s.spi.done
      then ((s.emit [.regRd .spiStatus v]).takeDraw).finish (some 0#32)
      else ((s.emit [.regRd .spiStatus v]).takeDraw).goTo .burstPoll s.cur.loc) := by
  obtain ⟨v, hpoll⟩ := poll_done (s := s.goTo .burstPoll s.cur.loc) hv fun t => t.finish (some Config.ok)
  refine ⟨v, Eq.trans ?_ hpoll⟩
  simp only [List.mem_cons, List.not_mem_nil, or_false] at hph
  obtain rfl | rfl := hph
  · rw [exec_spiBurst_next (s := s.goTo .burstUnit s.cur.loc) hg rfl, burstNext]
    refine (if_neg ?_).trans (if_pos hf)
    rw [lt_units_iff hg.length, hi]
    exact lt_irrefl _
  · exact exec_spiBurst_poll rfl

/-- A loaded unit is written to TXDATA and started, with no wait between. -/
theorem perform_spiBurst_send {s : State} {buf len : Word} {w : SpiWidth} (hg : BurstGood s.params s.cur.loc.v buf len w)
    (hv : s.params.Valid) (hph : s.cur.phase = .burstTx) (h : s.spi.inflight = none)
    (hunit : unitOf w s.cur.loc.unit = s.cur.loc.unit) :
    perform (.spiBurst buf len) 2 s = .next (({ s with
      spi := { s.spi with
        txdata := s.cur.loc.unit, inflight := some { width := w, value := s.cur.loc.unit }, done := false, busy := true }
      history := s.history ++ [.regWr .spiTxdata s.cur.loc.unit, .regWr .spiCtrl (s.params.spiStart w)] } : State).goTo
        .burstUnit { s.cur.loc with idx := s.cur.loc.idx + 1 }) := by
  have hctrl := exec_spiBurst_ctrl (s := (({ s with spi := { s.spi with txdata := s.cur.loc.unit } } : State).emit
    [.regWr .spiTxdata s.cur.loc.unit]).goTo .burstCtrl s.cur.loc) hg hv rfl h
  refine play_host (exec_spiBurst_tx hph h) (play_host hctrl ?_)
  simp only [Spi.started, State.emit, State.goTo, hunit, List.append_assoc]
  rfl

/-! ### A run of the burst -/

/-- The premises of R256's claim: a run from a quiet engine, interrupts off, the burst at the head of the running context's
program, SPI_BURST_ABSORBS (notes/assumptions/36.md). -/
structure BurstRun (sched : Nat → Move) (run : Nat → State) (buf len : Word) (w : SpiWidth) : Prop where
  runs : RunsOrStops sched run
  absorbs : SpiBurstAbsorbs sched run
  noRaise : ∀ k code, sched k ≠ .raise code
  valid : (run 0).params.Valid
  started : ¬(run 0).Stopped
  masked : (run 0).csr.mstatusMIE = false
  quiet : (run 0).spi.inflight = none
  raising : (run 0).cur.raising = none
  idle : (run 0).cur.phase = .idle
  head : (run 0).cur.prog.head?.map (requestTurn (run 0).params) = some (.instr (.spiBurst buf len))
  good : BurstGood (run 0).params (run 0).spi.config buf len w

/-- What stays as it was in `s`, whoever moves. -/
structure BurstFrame (s t : State) : Prop where
  stopped : ¬t.Stopped
  params : t.params = s.params
  mem : t.mem = s.mem
  csr : t.csr = s.csr
  susp : t.susp = s.susp
  raising : t.cur.raising = none

/-- The running context stands at phase `ph` of unit `j` of the burst. -/
structure InBurst (s t : State) (ph : Phase) (j : Nat) : Prop where
  prog : t.cur.prog = s.cur.prog
  phase : t.cur.phase = ph
  idx : t.cur.loc.idx = j
  config : t.cur.loc.v = s.spi.config

/-- Before the TXDATA write of unit `j` at move `n`: nothing has been started yet, or the engine step that SPI_BURST_ABSORBS
promises leaves the engine quiet. -/
def AbsorbedBefore (sched : Nat → Move) (run : Nat → State) (j n : Nat) : Prop :=
  j = 0 ∧ (run n).spi.inflight = none ∨
    ∃ i c, j = i + 1 ∧ c < n ∧ BurstStep sched run .burstCtrl (run 0).susp.length i c ∧
      ((∃ k, c < k ∧ k < n ∧ EngineStep sched run k) → (run n).spi.inflight = none)

/-- Where the burst stands at move `n`, after `h` host moves, of `N` units. -/
inductive BurstAt (sched : Nat → Move) (run : Nat → State) (buf : Word) (w : SpiWidth) (N n h : Nat) : Prop
  | before (hh : h = 0) (cur : (run n).cur = (run 0).cur) (config : (run n).spi.config = (run 0).spi.config)
      (quiet : (run n).spi.inflight = none)
  | unit (j : Nat) (hh : h = 3 * j + 1) (hj : j ≤ N) (place : InBurst (run 0) (run n) .burstUnit j)
      (absorbed : AbsorbedBefore sched run j n)
  | tx (j : Nat) (hh : h = 3 * j + 2) (hj : j < N) (place : InBurst (run 0) (run n) .burstTx j)
      (loaded : (run n).cur.loc.unit = bufferUnit (run 0).mem buf w j) (absorbed : AbsorbedBefore sched run j n)
  | ctrl (j : Nat) (hh : h = 3 * j + 3) (hj : j < N) (place : InBurst (run 0) (run n) .burstCtrl j)
      (written : (run n).spi.txdata = bufferUnit (run 0).mem buf w j) (quiet : (run n).spi.inflight = none)
  | returned (hh : h = 3 * N + 2) (phase : (run n).cur.phase = .idle) (result : (run n).cur.result = some 0#32)
      (prog : (run n).cur.prog = (run 0).cur.prog.tail)

/-- The units sent, with the one in flight, are the buffer's first `m`. -/
def SentUnits (s t : State) (buf : Word) (w : SpiWidth) (m : Nat) : Prop :=
  ∃ es, t.history = s.history ++ es ∧ spiUnits es ++ t.spi.inflight.toList =
    (List.range m).map fun k => { width := w, value := bufferUnit s.mem buf w k }

/-- The invariant of the run at move `n`. -/
structure BurstInv (sched : Nat → Move) (run : Nat → State) (buf len : Word) (w : SpiWidth) (n : Nat) : Prop where
  frame : BurstFrame (run 0) (run n)
  place : BurstAt sched run buf w (len.toNat / SpiWidth.bytes w) n (hostMoves sched n)
  units : SentUnits (run 0) (run n) buf w ((hostMoves sched n - 1) / 3)

section
variable {sched : Nat → Move} {run : Nat → State} {buf len : Word} {w : SpiWidth}

theorem BurstRun.inv_zero (h : BurstRun sched run buf len w) : BurstInv sched run buf len w 0 where
  frame := ⟨h.started, rfl, rfl, rfl, rfl, h.raising⟩
  place := .before rfl rfl rfl h.quiet
  units := ⟨[], (List.append_nil _).symm, by rw [h.quiet]; simp [hostMoves, spiUnits]⟩

/-! #### Another agent's move -/

/-- A quiet engine stays quiet, and the engine's own step makes it quiet. -/
theorem Away.quiet {m : Move} {s t : State} (a : Away m s t) (h : s.spi.inflight = none ∨ ∃ x, m = .spi x) :
    t.spi.inflight = none := by
  obtain ⟨-, hn⟩ | ⟨heq, hspi⟩ := a.inflight
  · exact hn
  · obtain hn | hm := h
    · exact heq.trans hn
    · exact heq.trans (hspi hm)

theorem AbsorbedBefore.away {j n : Nat} (h : AbsorbedBefore sched run j n) (a : Away (sched n) (run n) (run (n + 1))) :
    AbsorbedBefore sched run j (n + 1) := by
  obtain ⟨hj, hq⟩ | ⟨i, c, hj, hc, hstep, himp⟩ := h
  · exact .inl ⟨hj, a.quiet (.inl hq)⟩
  · refine .inr ⟨i, c, hj, by omega, hstep, fun ⟨k, hck, hkn, hk⟩ => ?_⟩
    obtain hlt | rfl : k < n ∨ k = n := by omega
    · exact a.quiet (.inl (himp ⟨k, hck, hlt, hk⟩))
    · obtain ⟨x, hx, -⟩ := hk
      exact a.quiet (.inr ⟨x, hx⟩)

theorem InBurst.away {s t u : State} {m : Move} {ph : Phase} {j : Nat} (h : InBurst s t ph j) (a : Away m t u) : InBurst s u ph j := by
  obtain ⟨hp, hph, hi, hc⟩ := h
  exact ⟨by rw [a.cur, hp], by rw [a.cur, hph], by rw [a.cur, hi], by rw [a.cur, hc]⟩

theorem BurstAt.away {N n k : Nat} (h : BurstAt sched run buf w N n k) (a : Away (sched n) (run n) (run (n + 1))) :
    BurstAt sched run buf w N (n + 1) k := by
  cases h with
  | before hh cur config quiet => exact .before hh (a.cur.trans cur) (a.config.trans config) (a.quiet (.inl quiet))
  | unit j hh hj place absorbed => exact .unit j hh hj (place.away a) (absorbed.away a)
  | tx j hh hj place loaded absorbed => exact .tx j hh hj (place.away a) (by rw [a.cur, loaded]) (absorbed.away a)
  | ctrl j hh hj place written quiet => exact .ctrl j hh hj (place.away a) (a.txdata.trans written) (a.quiet (.inl quiet))
  | returned hh phase result prog => exact .returned hh (by rw [a.cur, phase]) (by rw [a.cur, result]) (by rw [a.cur, prog])

theorem BurstFrame.away {s t u : State} {m : Move} (h : BurstFrame s t) (a : Away m t u) : BurstFrame s u where
  stopped := by rw [not_stopped, a.faulted, a.refused]; exact not_stopped.1 h.stopped
  params := a.params.trans h.params
  mem := a.mem.trans h.mem
  csr := a.csr.trans h.csr
  susp := a.susp.trans h.susp
  raising := by rw [a.cur]; exact h.raising

theorem SentUnits.away {s t u : State} {m : Move} {k : Nat} (h : SentUnits s t buf w k) (a : Away m t u) : SentUnits s u buf w k := by
  obtain ⟨es, hes, hunits⟩ := h
  obtain ⟨es', hes', hunits'⟩ := a.history
  refine ⟨es ++ es', by rw [hes', hes, List.append_assoc], ?_⟩
  rw [spiUnits_append, List.append_assoc, hunits', hunits]

theorem BurstInv.device {n : Nat} (h : BurstRun sched run buf len w) (hinv : BurstInv sched run buf len w n)
    (hm : sched n ≠ .host) : BurstInv sched run buf len w (n + 1) := by
  have a := h.runs.away hm (h.noRaise n) hinv.frame.stopped
  have hcount : hostMoves sched (n + 1) = hostMoves sched n := by rw [hostMoves_succ, if_neg hm, Nat.add_zero]
  exact ⟨hinv.frame.away a, by rw [hcount]; exact hinv.place.away a, by rw [hcount]; exact hinv.units.away a⟩

/-! #### The host's move -/

/-- While the burst is at the head of the program the host's move is its next micro-step. -/
theorem BurstRun.host {n : Nat} (h : BurstRun sched run buf len w) (hf : BurstFrame (run 0) (run n)) (hm : sched n = .host)
    (hq : (run n).cur.prog = (run 0).cur.prog) :
    turn ((run n).toMove (sched n)) = .instr (.spiBurst buf len) ∧
      ∀ t, exec (.spiBurst buf len) { run n with moves := [] } = .next t → run (n + 1) = t := by
  have hmie : (run n).csr.mstatusMIE = false := by rw [hf.csr]; exact h.masked
  obtain ⟨hturn, hstep⟩ := step_host_instr hf.stopped hmie hf.raising (by rw [hq, hf.params]; exact h.head)
  refine ⟨by rw [hm]; exact hturn, fun t ht => ?_⟩
  rw [h.runs n, hm, hstep, ht]
  rfl

/-- The host's move in the middle of the burst is that micro-step of its unit. -/
theorem BurstRun.burstStep {n j : Nat} {ph : Phase} (h : BurstRun sched run buf len w) (hf : BurstFrame (run 0) (run n))
    (hm : sched n = .host) (place : InBurst (run 0) (run n) ph j) : BurstStep sched run ph (run 0).susp.length j n where
  burst := ⟨buf, len, (h.host hf hm place.prog).1⟩
  phase := place.phase
  depth := congrArg List.length hf.susp
  unit := place.idx

/-- The TXDATA write of a burst's next unit finds the engine quiet (43_spi.md R256). -/
theorem BurstRun.quiet_at_tx {j n : Nat} (h : BurstRun sched run buf len w) (ha : AbsorbedBefore sched run j n)
    (hstep : BurstStep sched run .burstTx (run 0).susp.length j n) : (run n).spi.inflight = none := by
  obtain ⟨-, hq⟩ | ⟨i, c, rfl, hc, hctrl, himp⟩ := ha
  · exact hq
  · exact himp (h.absorbs _ i c n hc hctrl hstep)

/-- A move of the host that leaves the engine alone. -/
theorem AbsorbedBefore.host {j n : Nat} (h : AbsorbedBefore sched run j n) (hm : sched n = .host)
    (hin : (run (n + 1)).spi.inflight = (run n).spi.inflight) : AbsorbedBefore sched run j (n + 1) := by
  obtain ⟨hj, hq⟩ | ⟨i, c, hj, hc, hstep, himp⟩ := h
  · exact .inl ⟨hj, hin.trans hq⟩
  · refine .inr ⟨i, c, hj, by omega, hstep, fun ⟨k, hck, hkn, hk⟩ => ?_⟩
    obtain hlt | rfl : k < n ∨ k = n := by omega
    · exact hin.trans (himp ⟨k, hck, hlt, hk⟩)
    · obtain ⟨x, hx, -⟩ := hk
      exact absurd (hm.symm.trans hx) nofun

/-- No engine step fits between a CTRL write and the move after it. -/
theorem AbsorbedBefore.started {j n : Nat} (hstep : BurstStep sched run .burstCtrl (run 0).susp.length j n) :
    AbsorbedBefore sched run (j + 1) (n + 1) :=
  .inr ⟨j, n, rfl, Nat.lt_succ_self n, hstep, fun ⟨_, hlo, hhi, _⟩ => absurd hhi (by omega)⟩

theorem SentUnits.same {s t u : State} {k : Nat} (h : SentUnits s t buf w k) {es : List Event} (hu : u.history = t.history ++ es)
    (hes : spiUnits es = []) (hin : u.spi.inflight = t.spi.inflight) : SentUnits s u buf w k := by
  obtain ⟨es', hes', hunits⟩ := h
  exact ⟨es' ++ es, by rw [hu, hes', List.append_assoc], by rw [spiUnits_append, hes, List.append_nil, hin, hunits]⟩

/-- A quiet engine is given the next unit. -/
theorem SentUnits.succ {s t u : State} {k : Nat} (h : SentUnits s t buf w k) {es : List Event} (hu : u.history = t.history ++ es)
    (hes : spiUnits es = []) (hq : t.spi.inflight = none)
    (hin : u.spi.inflight = some { width := w, value := bufferUnit s.mem buf w k }) : SentUnits s u buf w (k + 1) := by
  obtain ⟨es', hes', hunits⟩ := h
  rw [hq, Option.toList_none, List.append_nil] at hunits
  refine ⟨es' ++ es, by rw [hu, hes', List.append_assoc], ?_⟩
  rw [spiUnits_append, hes, List.append_nil, hin, hunits, List.range_succ, List.map_append]
  rfl

/-- A micro-step of the burst changes the SPI registers, the running context, the history and the free values alone. -/
theorem BurstFrame.micro {s t u v : State} (h : BurstFrame s t) (hv : v = u)
    (hu : u = { t with spi := u.spi, cur := u.cur, history := u.history, moves := u.moves, draws := u.draws })
    (hr : u.cur.raising = t.cur.raising) : BurstFrame s v := by
  rw [hv, hu]
  exact ⟨h.stopped, h.params, h.mem, h.csr, h.susp, hr.trans h.raising⟩

theorem BurstInv.host {n : Nat} (h : BurstRun sched run buf len w) (hinv : BurstInv sched run buf len w n) (hm : sched n = .host)
    (hbound : hostMoves sched (n + 1) ≤
      3 * (len.toNat / SpiWidth.bytes w) + (if (run 0).params.burstFinalWait then 1 else 2)) :
    BurstInv sched run buf len w (n + 1) := by
  obtain ⟨hf, hplace, hunits⟩ := hinv
  have hcount : hostMoves sched (n + 1) = hostMoves sched n + 1 := by rw [hostMoves_succ, if_pos hm]
  rw [hcount] at hbound
  have hg (hc : (run n).cur.loc.v = (run 0).spi.config) : BurstGood (run n).params (run n).cur.loc.v buf len w := by
    rw [hf.params, hc]; exact h.good
  cases hplace with
  | before hh cur config quiet =>
    obtain ⟨-, hnext⟩ := h.host hf hm (by rw [cur])
    have hrun := hnext _ (exec_spiBurst_idle (by rw [cur]; exact h.idle))
    have hin : (run (n + 1)).spi.inflight = none := by rw [hrun]; exact quiet
    refine ⟨hf.micro hrun rfl rfl, .unit 0 (by omega) (Nat.zero_le _) ?_ (.inl ⟨rfl, hin⟩), ?_⟩
    · rw [hrun]; exact ⟨(congrArg Frame.prog cur :), rfl, rfl, config⟩
    · rw [hcount, hh]
      rw [hh] at hunits
      exact hunits.same (by rw [hrun]; rfl) rfl (by rw [hrun]; rfl)
  | unit j hh hj place absorbed =>
    obtain ⟨-, hnext⟩ := h.host hf hm place.prog
    have hleft : j * SpiWidth.bytes w ≤ len.toNat := (Nat.le_div_iff_mul_le (SpiWidth.bytes_pos w)).1 hj
    have hdiv : (hostMoves sched n + 1 - 1) / 3 = (hostMoves sched n - 1) / 3 := by omega
    obtain hlt | hlast := lt_or_eq_of_le hleft
    · have hrun := hnext _ (exec_spiBurst_load (s := { run n with moves := [] }) (hg place.config) place.phase
        (by rw [show _ = j from place.idx]; exact hlt))
      have hin : (run (n + 1)).spi.inflight = (run n).spi.inflight := by rw [hrun]; rfl
      refine ⟨hf.micro hrun rfl rfl, .tx j (by omega) ((lt_units_iff h.good.length).2 hlt) ?_ ?_ (absorbed.host hm hin), ?_⟩
      · rw [hrun]; exact ⟨place.prog, rfl, place.idx, place.config⟩
      · rw [hrun, ← hf.mem, ← place.idx]; rfl
      · rw [hcount, hdiv]
        exact hunits.same (es := []) (by rw [hrun]; exact (List.append_nil _).symm) rfl hin
    · have hN : len.toNat / SpiWidth.bytes w = j := by rw [← hlast, Nat.mul_div_cancel _ (SpiWidth.bytes_pos w)]
      have hfinal : (run n).params.burstFinalWait = false := by
        rw [hf.params]
        by_contra hw
        rw [if_pos (by simpa using hw)] at hbound
        omega
      have hrun := hnext _ (exec_spiBurst_return (s := { run n with moves := [] }) (hg place.config) place.phase
        (by rw [← hlast, show _ = j from place.idx]) hfinal)
      refine ⟨hf.micro hrun rfl rfl, .returned (by omega) ?_ ?_ ?_, ?_⟩
      · rw [hrun]; rfl
      · rw [hrun]; rfl
      · rw [hrun, ← place.prog]; rfl
      · rw [hcount, hdiv]
        exact hunits.same (es := []) (by rw [hrun]; exact (List.append_nil _).symm) rfl (by rw [hrun]; rfl)
  | tx j hh hj place loaded absorbed =>
    obtain ⟨-, hnext⟩ := h.host hf hm place.prog
    have hquiet := h.quiet_at_tx absorbed (h.burstStep hf hm place)
    have hrun := hnext _ (exec_spiBurst_tx (s := { run n with moves := [] }) place.phase hquiet)
    have hin : (run (n + 1)).spi.inflight = none := by rw [hrun]; exact hquiet
    refine ⟨hf.micro hrun rfl rfl, .ctrl j (by omega) hj ?_ ?_ hin, ?_⟩
    · rw [hrun]; exact ⟨place.prog, rfl, place.idx, place.config⟩
    · rw [hrun]; exact loaded
    · rw [hcount, show (hostMoves sched n + 1 - 1) / 3 = (hostMoves sched n - 1) / 3 by omega]
      exact hunits.same (es := [.regWr .spiTxdata (run n).cur.loc.unit]) (by rw [hrun]; rfl) rfl (hin.trans hquiet.symm)
  | ctrl j hh hj place written quiet =>
    obtain ⟨-, hnext⟩ := h.host hf hm place.prog
    have hvalid : (run n).params.Valid := by rw [hf.params]; exact h.valid
    have hrun := hnext _ (exec_spiBurst_ctrl (s := { run n with moves := [] }) (hg place.config) hvalid place.phase quiet)
    have hunit : unitOf w (run n).spi.txdata = bufferUnit (run 0).mem buf w j := by rw [written]; exact unitOf_load ..
    refine ⟨hf.micro hrun rfl rfl, .unit (j + 1) (by omega) hj ?_ (.started (h.burstStep hf hm place)), ?_⟩
    · rw [hrun]; exact ⟨place.prog, rfl, congrArg (· + 1) place.idx, place.config⟩
    · rw [show (hostMoves sched n - 1) / 3 = j by omega] at hunits
      rw [hcount, show (hostMoves sched n + 1 - 1) / 3 = j + 1 by omega]
      exact hunits.succ (es := [.regWr .spiCtrl ((run n).params.spiStart w)]) (by rw [hrun]; rfl) rfl quiet
        (by rw [hrun, ← hunit]; rfl)
  | returned hh => split at hbound <;> omega

/-- The invariant holds up to the burst's last micro-step, or with a final wait up to its first poll. -/
theorem BurstRun.inv (h : BurstRun sched run buf len w) (n : Nat) (hbound : hostMoves sched n ≤
    3 * (len.toNat / SpiWidth.bytes w) + (if (run 0).params.burstFinalWait then 1 else 2)) :
    BurstInv sched run buf len w n := by
  induction n with
  | zero => exact h.inv_zero
  | succ n ih =>
    have hinv := ih ((by rw [hostMoves_succ]; exact Nat.le_add_right _ _ : hostMoves sched n ≤ _).trans hbound)
    by_cases hm : sched n = .host
    · exact hinv.host h hm hbound
    · exact hinv.device h hm

/-- After the last host move of the burst it has returned OK. -/
theorem BurstAt.last {N n k : Nat} (h : BurstAt sched run buf w N n k) (hk : k = 3 * N + 2) :
    (run n).cur.phase = .idle ∧ (run n).cur.result = some 0#32 ∧ (run n).cur.prog = (run 0).cur.prog.tail := by
  cases h with
  | returned _ phase result prog => exact ⟨phase, result, prog⟩
  | _ => omega

end

/-- Settles O35: the claim of R256 by the invariant `BurstInv` of the run, one host move of the burst at a time. -/
theorem spiBurstWritesUnitsBackToBack : Obligations.SpiBurstWritesUnitsBackToBack := by
  refine ⟨fun s buf len w i hv hph hi hw hl hb ho hf => ?unit,
    fun sched run buf len w n hruns habs hraise hv hs hmie hq hrais hph hhead hw hl hb ho hf hn => ?run⟩
  case unit =>
    subst hi
    have hg : BurstGood s.params s.cur.loc.v buf len w := ⟨burstWidth_eq_some hv.burstDivs.symm hw, hl, hb, ho, hf⟩
    refine ⟨fun hi hfw => exec_spiBurst_return hg hph hi hfw, fun hi hfw p hp => exec_spiBurst_wait hg hv hi hfw hp,
      fun k hk => Memory.byteOf_load hk, fun hi => ⟨_, exec_spiBurst_load hg hph hi, rfl, fun h => ?overrun, fun h => ?send⟩⟩
    case overrun => exact exec_spiBurst_tx_overrun rfl h
    case send =>
      exact perform_spiBurst_send (s := s.goTo .burstTx { s.cur.loc with unit := bufferUnit s.mem buf w s.cur.loc.idx })
        hg hv rfl h (unitOf_load ..)
  case run =>
    have h : BurstRun sched run buf len w :=
      ⟨hruns, habs, hraise, hv, hs, hmie, hq, hrais, hph, hhead, burstWidth_eq_some hv.burstDivs.symm hw, hl, hb, ho, hf⟩
    obtain ⟨frame, place, units⟩ := h.inv n hn
    exact ⟨frame.stopped, frame.mem, units, place.last⟩

end Sys2Proof.Machine
end

section
/-! I2C registers, command words, the engine's table and the classification of outcomes (44_i2c.md sections 1 to 3). -/

namespace Sys2Proof.Machine

/-! ### Writes of the I2C registers -/

section
variable {s : State} {v : Word}

theorem regWrite_i2cData (h : s.i2c.cmd = none) : regWrite .i2cData v s =
    .next (({ s with i2c := { s.i2c with data := (v.setWidth 8).setWidth 32 } } : State).emit [.regWr .i2cData v]) :=
  if_neg (by simp [h])

theorem writeStatement_i2cPrescale (h : s.i2c.cmd = none) : writeStatement .i2cPrescale v none s =
    .next ((({ s with i2c := { s.i2c with prescale := v } } : State).emit [.regWr .i2cPrescale v]).finish none) := by
  have hw : regWrite .i2cPrescale v s =
      .next (({ s with i2c := { s.i2c with prescale := v } } : State).emit [.regWr .i2cPrescale v]) := if_neg (by simp [h])
  rw [writeStatement, hw, andThen_next]

/-- The registers when the phase `c` has been commanded, ACK free (44_i2c.md R281). -/
def I2c.started (x : I2c) (c : I2cCmd) (ack : Bool) : I2c :=
  { x with done := false, arbLost := false, error := false, ack := ack, cmd := some c }

section
variable {c : I2cCmd} (h : s.i2c.cmd = none) (hc : i2cCommand s.params v s.i2c.data = some c)
include h hc

theorem regWrite_i2cCtrl (ha : i2cAllowed s.i2c.own c = true) : regWrite .i2cCtrl v s =
    .next (({ s with i2c := s.i2c.started c (s.draws.head.getLsbD 0), draws := s.draws.next } : State).emit [.regWr .i2cCtrl v]) := by
  refine (if_neg (by simp [h])).trans ?_
  rw [State.emit_params, State.emit_i2c, hc]
  exact if_pos ha

theorem regWrite_i2cCtrl_refused (ha : i2cAllowed s.i2c.own c = false) : regWrite .i2cCtrl v s = .refused .illegalPhase := by
  refine (if_neg (by simp [h])).trans ?_
  rw [State.emit_params, State.emit_i2c, hc]
  exact if_neg (by simp [ha])

end

theorem regWrite_i2cCtrl_illegal (h : s.i2c.cmd = none) (hc : i2cCommand s.params v s.i2c.data = none) :
    regWrite .i2cCtrl v s = .refused .illegalCommand := by
  refine (if_neg (by simp [h])).trans ?_
  rw [State.emit_params, State.emit_i2c, hc]

end

/-- A word that is no command word (30_encoding.md R103, R125). -/
theorem i2cCommand_eq_none {p : Params} {v : Word} (data : Word)
    (h : v ∉ [p.i2cStart, p.i2cRestart, p.i2cWrite, p.i2cReadAck, p.i2cReadNack, p.i2cStop]) : i2cCommand p v data = none := by
  simp only [List.mem_cons, List.not_mem_nil, or_false, not_or] at h
  obtain ⟨hstart, hrestart, hwrite, hack, hnack, hstop⟩ := h
  rw [i2cCommand, if_neg hstart, if_neg hrestart, if_neg hwrite, if_neg hack, if_neg hnack, if_neg hstop]

/-- Settles O37. -/
theorem i2cDataAndPrescaleWritesStore : Obligations.I2cDataAndPrescaleWritesStore := by
  intro s v h
  refine ⟨⟨(v.setWidth 8).setWidth 32, by simp; omega, ?data⟩, fun i hi => ?prescale⟩
  case data => exact congrArg (andThen · fun t => .next (t.finish none)) (regWrite_i2cData h)
  case prescale =>
    simp only [List.mem_cons, List.not_mem_nil, or_false] at hi
    obtain rfl | rfl := hi <;> exact writeStatement_i2cPrescale h

/-- Settles O38. -/
theorem i2cCommandStartsOnePhase : Obligations.I2cCommandStartsOnePhase := by
  intro s x hv h
  refine ⟨fun row hrow i hi => ?phase, fun hx => ?illegal⟩
  case phase =>
    obtain ⟨hstart, hrestart, hwrite, hack, hnack, hstop⟩ := i2cCommand_words hv s.i2c.data
    have hcmd : exec i s = writeStatement .i2cCtrl row.2.1 none s ∧ i2cCommand s.params row.2.1 s.i2c.data = some row.2.2.1 ∧
        i2cAllowed s.i2c.own row.2.2.1 = row.2.2.2 := by
      simp only [List.mem_cons, List.not_mem_nil, or_false] at hrow hi
      obtain rfl | rfl | rfl | rfl | rfl | rfl := hrow <;> refine ⟨by obtain rfl | rfl := hi <;> rfl, ?_, rfl⟩
      · exact hstart
      · exact hrestart
      · exact hwrite
      · exact hack
      · exact hnack
      · exact hstop
    obtain ⟨hexec, hc, hallowed⟩ := hcmd
    rw [hexec, ← hallowed]
    exact ⟨fun ha => congrArg (andThen · fun t => .next (t.finish none)) (regWrite_i2cCtrl h hc ha),
      fun ha => congrArg (andThen · fun t => .next (t.finish none)) (regWrite_i2cCtrl_refused h hc ha)⟩
  case illegal =>
    exact congrArg (andThen · fun t => .next (t.finish none)) (regWrite_i2cCtrl_illegal h (i2cCommand_eq_none _ hx))

/-- Settles O39. -/
theorem i2cWriteInFlightStops : Obligations.I2cWriteInFlightStops := by
  intro s v h
  have hctrl (w : Word) : writeStatement .i2cCtrl w none s = .fault (.i2cOverrun .i2cCtrl) :=
    congrArg (andThen · fun t => .next (t.finish none)) (if_pos h)
  refine ⟨fun i hi => ?ctrl, congrArg (andThen · fun t => .next (t.finish none)) (if_pos h), fun i hi => ?prescale⟩ <;>
    simp only [List.mem_cons, List.not_mem_nil, or_false] at hi
  case ctrl => obtain rfl | rfl | rfl | rfl | rfl | rfl | rfl := hi <;> exact hctrl _
  case prescale =>
    obtain rfl | rfl := hi <;> exact congrArg (andThen · fun t => .next (t.finish none)) (if_pos h)

/-! ### The engine -/

theorem i2cEngine_row {s : State} {c : I2cCmd} {o : I2cOutcome} {row : I2cRow} (hc : s.i2c.cmd = some c)
    (hrow : i2cTable s.params s.i2c.own c o = some row) : i2cEngine o s =
      { s with i2c := s.i2c.complete row s.draws.head, history := s.history ++ row.events, draws := s.draws.next } := by
  rw [i2cEngine, hc]
  dsimp only
  rw [hrow]

theorem i2cEngine_unlisted {s : State} {c : I2cCmd} {o : I2cOutcome} (hc : s.i2c.cmd = some c)
    (hrow : i2cTable s.params s.i2c.own c o = none) : i2cEngine o s = s := by
  rw [i2cEngine, hc]
  dsimp only
  rw [hrow]

/-- Settles O40. -/
theorem i2cEngineFollowsTheTable : Obligations.I2cEngineFollowsTheTable := by
  intro s o ms c b v k hf hr hm hc addr rows stops
  have hstep : step s = .next (i2cEngine o { s with moves := ms }) := step_device hf hr hm (by simp)
  refine ⟨fun row hrow hcmd ho => ?listed, fun hnone => ?unlisted⟩
  case unlisted => rw [hstep, i2cEngine_unlisted (s := { s with moves := ms }) hc hnone]
  case listed =>
    have hlisted : ∃ r, i2cTable s.params s.i2c.own row.1 row.2.1 = some r ∧ r.ack = row.2.2.1.map (· == s.params.ackIs1) ∧
        r.arbLost = row.2.2.2.1 ∧ r.error = row.2.2.2.2.1 ∧ r.own.getD s.i2c.own = row.2.2.2.2.2.1 ∧
        (r.data.map fun v => v.setWidth 32).getD s.i2c.data = row.2.2.2.2.2.2.1 ∧ r.events = row.2.2.2.2.2.2.2 := by
      obtain hrow | hrow := List.mem_append.1 hrow
      · simp only [rows, List.mem_cons, List.not_mem_nil, or_false] at hrow
        obtain rfl | rfl | rfl | rfl | rfl | rfl | rfl | rfl | rfl | rfl | rfl | rfl | rfl | rfl | rfl := hrow <;>
          exact ⟨_, rfl, rfl, rfl, rfl, rfl, rfl, rfl⟩
      · cases hown : s.i2c.own <;> simp only [stops, hown, Bool.false_eq_true, if_true, if_false, List.mem_cons, List.not_mem_nil, or_false] at hrow
        · subst hrow
          exact ⟨_, rfl, rfl, rfl, rfl, rfl, rfl, rfl⟩
        · obtain rfl | rfl := hrow <;> exact ⟨_, rfl, rfl, rfl, rfl, rfl, rfl, rfl⟩
    obtain ⟨r, hr, hack, harb, herr, hown, hdata, hevents⟩ := hlisted
    rw [hcmd, ho] at hr
    refine ⟨r.ack.getD (s.draws.head.getLsbD 0), fun hit h => by rw [hack, h]; rfl, ?_⟩
    rw [hstep, i2cEngine_row (s := { s with moves := ms }) hc hr, ← harb, ← herr, ← hown, ← hdata, ← hevents]
    rfl

/-- Settles O41. -/
theorem i2cClassifyOrdersTheErrors : Obligations.I2cClassifyOrdersTheErrors := by
  intro p w check
  refine ⟨fun he => if_pos he, fun he ha => ?arbitration, fun he ha => ⟨fun hcheck hack => ?nack, fun hok => ?ok⟩⟩
  all_goals rw [classify, if_neg (by simp [he])]
  case arbitration => exact if_pos ha
  case nack => rw [if_neg (by simp [ha])]; exact if_pos (by simp [acked, hcheck, hack])
  case ok => rw [if_neg (by simp [ha])]; exact if_neg (by obtain rfl | hack := hok <;> simp [acked, *])

end Sys2Proof.Machine
end

section
/-! The waits of the I2C operations and their way out after an error (44_i2c.md R300 to R304, R313, R315). -/

namespace Sys2Proof.Machine

/-! ### The helper sequences -/

/-- The state after a read of I2C.STATUS. -/
def State.statusRead (s : State) : State :=
  (s.emit [.regRd .i2cStatus (readValue s s.draws.head .i2cStatus)]).takeDraw

/-- What an outcome is classified as when the acknowledge is checked or not, `code` an error (44_i2c.md R302). -/
def PhaseFailed (s : State) (checkAck : Bool) (code : Word) : Prop :=
  s.i2c.error = true ∧ code = s.params.errBus ∨
    s.i2c.error = false ∧ s.i2c.arbLost = true ∧ code = s.params.errArbLost ∨
    checkAck = true ∧ s.i2c.error = false ∧ s.i2c.arbLost = false ∧ s.i2c.ack ≠ s.params.ackIs1 ∧ code = s.params.errNack

/-- The outcome is classified as OK. -/
structure PhaseOk (s : State) (checkAck : Bool) : Prop where
  error : s.i2c.error = false
  arbLost : s.i2c.arbLost = false
  ack : checkAck = false ∨ s.i2c.ack = s.params.ackIs1

section
variable {s : State} {checkAck : Bool} {code : Word} (hv : s.params.Valid)
include hv

/-- The error codes are no OK (44_i2c.md R302). -/
theorem PhaseFailed.ne_ok (h : PhaseFailed s checkAck code) : code ≠ Config.ok := by
  have hneg : code.msb = true := by
    obtain ⟨-, rfl⟩ | ⟨-, -, rfl⟩ | ⟨-, -, -, -, rfl⟩ := h <;> exact hv.errNegative _ (by simp)
  rintro rfl
  exact absurd hneg (by decide)

theorem PhaseFailed.classify (h : PhaseFailed s checkAck code) (d : Word) :
    classify s.params (readValue s d .i2cStatus) checkAck = code := by
  obtain ⟨-, hack, harb, -, herr⟩ := i2cStatus_bits hv d
  obtain ⟨hbus, hlost, hrest⟩ := i2cClassifyOrdersTheErrors s.params (readValue s d .i2cStatus) checkAck
  rw [harb, herr] at *
  obtain ⟨he, rfl⟩ | ⟨he, ha, rfl⟩ | ⟨hc, he, ha, hn, rfl⟩ := h
  · exact hbus he
  · exact hlost he ha
  · exact (hrest he ha).1 hc (by rwa [hack])

theorem PhaseOk.classify (h : PhaseOk s checkAck) (d : Word) :
    classify s.params (readValue s d .i2cStatus) checkAck = Config.ok := by
  obtain ⟨-, hack, harb, -, herr⟩ := i2cStatus_bits hv d
  obtain ⟨-, -, hrest⟩ := i2cClassifyOrdersTheErrors s.params (readValue s d .i2cStatus) checkAck
  exact (hrest (herr.trans h.error) (harb.trans h.arbLost)).2 (h.ack.imp_right hack.trans)

variable {bad : Word → State → State} {k : State → State}

/-- A turn of `wait_idle()`. -/
theorem waitIdle_eq (k : State → State) : waitIdle k s =
    .next (if s.i2c.own || s.i2c.extBusy || s.i2c.cmd.isSome then s.statusRead else k s.statusRead) := by
  have hbit := (i2cStatus_bits hv s.draws.head).1
  split
  next h => exact poll_miss (by rw [hbit, h]; simp)
  next h => exact poll_hit (by rw [hbit]; simpa using h)

theorem waitDone_of_done (hd : s.i2c.done = true) : waitDone checkAck bad k s =
    .next (if classify s.params (readValue s s.draws.head .i2cStatus) checkAck = Config.ok then k s.statusRead
      else bad (classify s.params (readValue s s.draws.head .i2cStatus) checkAck) s.statusRead) :=
  poll_hit ((i2cStatus_bits hv s.draws.head).2.2.2.1.trans hd)

theorem waitDone_failed (hd : s.i2c.done = true) (h : PhaseFailed s checkAck code) :
    waitDone checkAck bad k s = .next (bad code s.statusRead) := by
  rw [waitDone_of_done hv hd, h.classify hv, if_neg (h.ne_ok hv)]

theorem waitDone_ok (hd : s.i2c.done = true) (h : PhaseOk s checkAck) : waitDone checkAck bad k s = .next (k s.statusRead) := by
  rw [waitDone_of_done hv hd, h.classify hv, if_pos rfl]

/-- STOP has been commanded after an error (44_i2c.md R303). -/
def State.stopCommanded (s : State) : State :=
  { s with
    i2c := s.i2c.started .stop (s.draws.next.head.getLsbD 0)
    history := s.history ++ [.regRd .i2cStatus (readValue s s.draws.head .i2cStatus), .regWr .i2cCtrl s.params.i2cStop]
    draws := s.draws.next.next }

theorem abortStep_eq {done : Word → State → State} (hcmd : s.i2c.cmd = none) :
    abortStep done (toAbort code s.statusRead) = .next (if s.params.abortWaits
      then s.stopCommanded.goTo (.i2c .stop .abortIdle) { s.cur.loc with code := code }
      else done code (s.stopCommanded.goTo (.i2c .stop .abort) { s.cur.loc with code := code })) := by
  obtain ⟨-, -, -, -, -, hstop⟩ := i2cCommand_words hv s.i2c.data
  have hwrite : regWrite .i2cCtrl s.params.i2cStop (toAbort code s.statusRead) =
      .next (s.stopCommanded.goTo (.i2c .stop .abort) { s.cur.loc with code := code }) := by
    refine (regWrite_i2cCtrl (s := toAbort code s.statusRead) hcmd hstop rfl).trans ?_
    rw [State.stopCommanded, List.append_cons]
    rfl
  exact congrArg (andThen · _) hwrite

end

/-! ### The operations' micro-steps -/

/-- Instruction `i`, standing at a micro-step with the locals `l`, does `f`. -/
def Doing (i : Instr) (st : I2cState) (pos : I2cPos) (l : Locals) (f : State → Result) : Prop :=
  ∀ t : State, t.cur.phase = .i2c st pos → t.cur.loc = l → exec i t = f t

/-- Instruction `i` performs the simple transaction `j` where its locals say `second` (44_i2c.md R304, R312). -/
def DoesSimple (i : Instr) (j : I2cJob) (done : Word → State → State) (second : Bool) : Prop :=
  ∀ st pos l, l.second = second → Doing i st pos l (simpleSteps j done st pos)

theorem simple_i2c {j : I2cJob} {done : Word → State → State} {s : State} {st : I2cState} {pos : I2cPos}
    (hph : s.cur.phase = .i2c st pos) : simple j done s = simpleSteps j done st pos s := by rw [simple, hph]

/-- The transaction of I2C.WRITE_N (44_i2c.md R310). -/
def writeJob (addr7 buf n : Word) : I2cJob := { read := false, addr7 := addr7, count := n.toNat, buf := some buf, nackLast := 0#32 }

/-- The transaction of I2C.READ_N (44_i2c.md R311). -/
def readJob (addr7 buf n nackLast : Word) : I2cJob :=
  { read := true, addr7 := addr7, count := n.toNat, buf := some buf, nackLast := nackLast }

section
variable (addr7 buf n nackLast : Word)

theorem i2cWriteN_doesSimple (b : Bool) : DoesSimple (.i2cWriteN addr7 buf n) (writeJob addr7 buf n) returnCode b :=
  fun _ _ _ _ _ hph _ => simple_i2c hph

theorem i2cReadN_doesSimple (b : Bool) : DoesSimple (.i2cReadN addr7 buf n nackLast) (readJob addr7 buf n nackLast) returnCode b :=
  fun _ _ _ _ _ hph _ => simple_i2c hph

theorem exec_i2cRtwb_i2c {s : State} {st : I2cState} {pos : I2cPos} (hph : s.cur.phase = .i2c st pos) :
    exec (.i2cRtwb addr7) s = if s.cur.loc.second then simpleSteps (rtwbWrite addr7) returnCode st pos s
      else simpleSteps (rtwbRead addr7) rtwbTurn st pos s := by
  rw [show exec (.i2cRtwb addr7) s = execI2cRtwb addr7 s from rfl, execI2cRtwb, hph, simple_i2c hph, simple_i2c hph]

theorem i2cRtwb_reads : DoesSimple (.i2cRtwb addr7) (rtwbRead addr7) rtwbTurn false :=
  fun _ _ _ hl _ hph h => (exec_i2cRtwb_i2c addr7 hph).trans (if_neg (by simp [h, hl]))

theorem i2cRtwb_writes : DoesSimple (.i2cRtwb addr7) (rtwbWrite addr7) returnCode true :=
  fun _ _ _ hl _ hph h => (exec_i2cRtwb_i2c addr7 hph).trans (if_pos (by simp [h, hl]))

theorem i2cRtwbRs_does (st : I2cState) (pos : I2cPos) (l : Locals) :
    Doing (.i2cRtwbRs addr7) st pos l (repeatedStartSteps addr7 st pos) := by
  intro t hph _
  rw [show exec (.i2cRtwbRs addr7) t = execI2cRtwbRs addr7 t from rfl, execI2cRtwbRs, hph]

end

/-! ### The first micro-step -/

/-- The first turn of `wait_idle()`, on the way to the address byte. -/
def firstWait (s : State) : Result := waitIdle (fun t => t.toI2c .idle .addrData t.cur.loc) s

section
variable {s : State} {addr7 : Word} {i : Instr}

theorem simple_idle (j : I2cJob) (done : Word → State → State) (hidle : s.cur.phase = .idle) :
    simple j done s = i2cBegin j.addr7 j.buf j.count firstWait s := by
  rw [simple, hidle]
  rfl

theorem exec_i2cBuffer_idle {buf n nackLast : Word} (hidle : s.cur.phase = .idle)
    (hi : i ∈ [Instr.i2cWriteN addr7 buf n, .i2cReadN addr7 buf n nackLast]) :
    exec i s = i2cBegin addr7 (some buf) n.toNat firstWait s := by
  simp only [List.mem_cons, List.not_mem_nil, or_false] at hi
  obtain rfl | rfl := hi
  · exact simple_idle (writeJob addr7 buf n) returnCode hidle
  · exact simple_idle (readJob addr7 buf n nackLast) returnCode hidle

theorem exec_i2cRtwb_idle (hidle : s.cur.phase = .idle) : exec (.i2cRtwb addr7) s = i2cBegin addr7 none 1 firstWait s := by
  rw [show exec (.i2cRtwb addr7) s = execI2cRtwb addr7 s from rfl, execI2cRtwb, hidle]
  exact simple_idle (rtwbRead addr7) rtwbTurn hidle

theorem exec_i2cRtwbRs_idle (hidle : s.cur.phase = .idle) : exec (.i2cRtwbRs addr7) s = i2cBegin addr7 none 0 firstWait s := by
  rw [show exec (.i2cRtwbRs addr7) s = execI2cRtwbRs addr7 s from rfl, execI2cRtwbRs, hidle]
  rfl

end

section
variable {addr7 : Word} {b : Option Word} {len : Nat} {body : State → Result} {s : State}

theorem addr7Ok_iff : addr7Ok addr7 = true ↔ addr7.toNat ≤ 0x7F := decide_eq_true_iff

theorem i2cBegin_badAddress (h : 0x7F < addr7.toNat) : i2cBegin addr7 b len body s = .refused .badAddress :=
  if_pos (by rw [Bool.not_eq_true', Bool.eq_false_iff, Ne, addr7Ok_iff]; omega)

theorem i2cBegin_overlap (h : addr7.toNat ≤ 0x7F) (hb : bufferOverlaps s.params.bases b len = true) :
    i2cBegin addr7 b len body s = .refused .misalignedBuffer :=
  (if_neg (by simp [addr7Ok_iff.2 h])).trans (if_pos hb)

theorem i2cBegin_ok (h : addr7.toNat ≤ 0x7F) (hb : bufferOverlaps s.params.bases b len = false) :
    i2cBegin addr7 b len body s = body (s.toI2c .idle .waitIdle Locals.none) :=
  (if_neg (by simp [addr7Ok_iff.2 h])).trans (if_neg (by simp [hb]))

end

/-- The first turn of `wait_idle()` does nothing but read the status (44_i2c.md R300). -/
theorem firstWait_eq {s : State} (hv : s.params.Valid) : firstWait (s.toI2c .idle .waitIdle Locals.none) =
    .next (s.statusRead.goTo
      (.i2c .idle (if s.i2c.own || s.i2c.extBusy || s.i2c.cmd.isSome then .waitIdle else .addrData)) Locals.none) := by
  refine (waitIdle_eq (s := s.toI2c .idle .waitIdle Locals.none) hv _).trans (congrArg _ ?_)
  show (if (s.i2c.own || s.i2c.extBusy || s.i2c.cmd.isSome) = true then _ else _) = _
  split <;> rfl

/-- Settles O42. -/
theorem i2cOperationsWaitForAnIdleBus : Obligations.I2cOperationsWaitForAnIdleBus := by
  intro s addr7 buf n nackLast hv hidle
  refine ⟨fun i hi x ha hle hlt hwin => ?window, fun i hi => ?begin⟩
  case window => exact (exec_i2cBuffer_idle hidle hi).trans (i2cBegin_overlap ha (overlapsWindow_of_byte hle hlt hwin))
  case begin =>
    have hexec : ∃ b len, exec i s = i2cBegin addr7 b len firstWait s ∧
        (overlapsWindow s.params.bases buf.toNat n.toNat = false ∨ i ∈ [Instr.i2cRtwb addr7, .i2cRtwbRs addr7] →
          bufferOverlaps s.params.bases b len = false) := by
      obtain hi | hi := List.mem_append.1 (show i ∈ [_, _] ++ [Instr.i2cRtwb addr7, .i2cRtwbRs addr7] from hi)
      · refine ⟨some buf, n.toNat, exec_i2cBuffer_idle hidle hi, fun h => h.elim id fun hi' => absurd hi' ?_⟩
        simp only [List.mem_cons, List.not_mem_nil, or_false] at hi
        obtain rfl | rfl := hi <;> simp
      · simp only [List.mem_cons, List.not_mem_nil, or_false] at hi
        obtain rfl | rfl := hi
        · exact ⟨none, 1, exec_i2cRtwb_idle hidle, fun _ => rfl⟩
        · exact ⟨none, 0, exec_i2cRtwbRs_idle hidle, fun _ => rfl⟩
    obtain ⟨b, len, hexec, hbuf⟩ := hexec
    rw [hexec]
    exact ⟨i2cBegin_badAddress, fun ha hclear => ⟨_, (i2cBegin_ok ha (hbuf hclear)).trans (firstWait_eq hv)⟩⟩

/-! ### The way out after an error -/

/-- What an operation does after a phase that ended badly: it sees DONE, then commands STOP and returns the code, or with
I2C_ABORT_WAITS goes on to wait for an idle bus (44_i2c.md R303). -/
def StopsAndReturns (i : Instr) (s : State) (code : Word) : Prop :=
  ∃ (u t : State) (w : Word) (ack : Bool), exec i s = .next u ∧ exec i u = .next t ∧
    let stopped : State := { s with
      i2c := { s.i2c with done := false, arbLost := false, error := false, ack := ack, cmd := some .stop }
      history := s.history ++ [.regRd .i2cStatus w, .regWr .i2cCtrl s.params.i2cStop]
      draws := t.draws }
    t = if s.params.abortWaits then stopped.goTo (.i2c .stop .abortIdle) { s.cur.loc with code := code }
      else stopped.finish (some code)

theorem stopsAndReturns {i : Instr} {s : State} {st : I2cState} {pos : I2cPos} {checkAck : Bool} {code : Word}
    {k : State → State} {done : Word → State → State} (hv : s.params.Valid) (hcmd : s.i2c.cmd = none) (hd : s.i2c.done = true)
    (hbad : PhaseFailed s checkAck code) (hph : s.cur.phase = .i2c st pos)
    (hwait : Doing i st pos s.cur.loc (waitDone checkAck toAbort k))
    (habort : Doing i .stop .abort { s.cur.loc with code := code } (abortStep done))
    (hdone : ∀ t, done code t = t.finish (some code)) : StopsAndReturns i s code := by
  have hfirst := (hwait s hph rfl).trans (waitDone_failed hv hd hbad)
  have hsecond := (habort (toAbort code s.statusRead) rfl rfl).trans (abortStep_eq hv hcmd)
  refine ⟨_, _, readValue s s.draws.head .i2cStatus, s.draws.next.head.getLsbD 0, hfirst, hsecond, ?_⟩
  rw [hdone]
  split <;> rfl

/-- The failed phase of a simple transaction (44_i2c.md R304): an address, or a data byte. -/
theorem DoesSimple.stopsAndReturns {i : Instr} {j : I2cJob} {done : Word → State → State} {b checkAck : Bool} {s : State} {code : Word}
    (hi : DoesSimple i j done b) (hb : s.cur.loc.second = b) (hv : s.params.Valid) (hcmd : s.i2c.cmd = none)
    (hd : s.i2c.done = true) (hbad : PhaseFailed s checkAck code) (hdone : ∀ t, done code t = t.finish (some code))
    (hph : s.cur.phase = .i2c .addrSent .waitDone ∧ checkAck = true ∨ s.cur.phase = .i2c .data .waitDone ∧ checkAck = !j.read) :
    StopsAndReturns i s code := by
  obtain ⟨hph, rfl⟩ | ⟨hph, rfl⟩ := hph
  · exact Machine.stopsAndReturns hv hcmd hd hbad hph (hi _ _ _ hb) (hi _ _ _ hb) hdone
  · exact Machine.stopsAndReturns hv hcmd hd hbad hph (hi _ _ _ hb) (hi _ _ _ hb) hdone

/-- Every simple operation performs a simple transaction, with a result that an error code becomes as it stands. -/
theorem exists_doesSimple {i : Instr} {addr7 buf n nackLast : Word} (b : Bool)
    (hi : i ∈ [Instr.i2cWriteN addr7 buf n, .i2cReadN addr7 buf n nackLast, .i2cRtwb addr7]) :
    ∃ j done, DoesSimple i j done b ∧ (∀ code t, code ≠ Config.ok → done code t = t.finish (some code)) ∧
      (i = .i2cRtwb addr7 → j.read = !b) := by
  simp only [List.mem_cons, List.not_mem_nil, or_false] at hi
  obtain rfl | rfl | rfl := hi
  · exact ⟨_, _, i2cWriteN_doesSimple addr7 buf n b, fun _ _ _ => rfl, nofun⟩
  · exact ⟨_, _, i2cReadN_doesSimple addr7 buf n nackLast b, fun _ _ _ => rfl, nofun⟩
  · cases b with
    | false => exact ⟨_, _, i2cRtwb_reads addr7, fun _ _ h => if_neg h, fun _ => rfl⟩
    | true => exact ⟨_, _, i2cRtwb_writes addr7, fun _ _ _ => rfl, fun _ => rfl⟩

theorem mem_i2cOperations {i : Instr} {addr7 buf n nackLast : Word}
    (hi : i ∈ [Instr.i2cWriteN addr7 buf n, .i2cReadN addr7 buf n nackLast, .i2cRtwb addr7, .i2cRtwbRs addr7]) :
    i ∈ [Instr.i2cWriteN addr7 buf n, .i2cReadN addr7 buf n nackLast, .i2cRtwb addr7] ∨ i = .i2cRtwbRs addr7 := by
  simpa [or_assoc] using hi

/-- Settles O47. -/
theorem i2cErrorsCommandStopThenReturn : Obligations.I2cErrorsCommandStopThenReturn := by
  refine ⟨fun s addr7 buf n nackLast code checkAck hv hcmd hd hbad => ⟨fun i hi => ?phase, fun i hi hcheck hph => ?stop⟩,
    fun s addr7 buf n nackLast hv hph hcode i hi => ?idle⟩
  case phase =>
    have hne : code ≠ Config.ok := PhaseFailed.ne_ok hv hbad
    obtain ⟨rfl, hi, hph⟩ | ⟨rfl, rfl, hph⟩ | ⟨hi, hph, hsecond⟩ | ⟨rfl, rfl, hph⟩ := hi
    · obtain hi | rfl := mem_i2cOperations hi
      · obtain ⟨j, done, hsimple, hdone, -⟩ := exists_doesSimple s.cur.loc.second hi
        exact hsimple.stopsAndReturns rfl hv hcmd hd hbad (fun t => hdone code t hne) (.inl ⟨hph, rfl⟩)
      · exact stopsAndReturns hv hcmd hd hbad hph (i2cRtwbRs_does addr7 _ _ _) (i2cRtwbRs_does addr7 _ _ _) fun _ => rfl
    · exact (i2cWriteN_doesSimple addr7 buf n _).stopsAndReturns rfl hv hcmd hd hbad (fun _ => rfl) (.inr ⟨hph, rfl⟩)
    · simp only [List.mem_cons, List.not_mem_nil, or_false] at hi
      obtain rfl | rfl := hi
      · obtain ⟨j, done, hsimple, hdone, hread⟩ := exists_doesSimple (addr7 := addr7) (buf := buf) (n := n) (nackLast := nackLast) s.cur.loc.second
          (show .i2cRtwb addr7 ∈ _ by simp)
        exact hsimple.stopsAndReturns rfl hv hcmd hd hbad (fun t => hdone code t hne) (.inr ⟨hph, by rw [hread rfl, hsecond, Bool.not_not]⟩)
      · have hwait : Doing (.i2cRtwbRs addr7) .data .waitDone s.cur.loc (waitDone checkAck toAbort
            fun t => if t.cur.loc.second then toStop t else t.toI2c .data .getData t.cur.loc) := fun t hp hl => by
          rw [i2cRtwbRs_does addr7 .data .waitDone _ t hp hl, ← hsecond, ← hl]
          rfl
        exact stopsAndReturns hv hcmd hd hbad hph hwait (i2cRtwbRs_does addr7 _ _ _) fun _ => rfl
    · exact (i2cReadN_doesSimple addr7 buf n nackLast _).stopsAndReturns rfl hv hcmd hd hbad (fun _ => rfl) (.inr ⟨hph, rfl⟩)
  case stop =>
    have hne : code ≠ Config.ok := PhaseFailed.ne_ok hv hbad
    obtain ⟨j, done, hsimple, hdone, -⟩ := exists_doesSimple s.cur.loc.second hi
    subst hcheck
    exact ⟨_, (hsimple .stop .waitDone _ rfl s hph rfl).trans ((waitDone_failed hv hd hbad).trans (congrArg _ (hdone _ _ hne)))⟩
  case idle =>
    have hturn (done : Word → State → State) (hdone : ∀ t, done s.cur.loc.code t = t.finish (some s.cur.loc.code)) :
        ∃ w, waitIdle (fun t => done t.cur.loc.code t) s = .next (if s.i2c.own || s.i2c.extBusy || s.i2c.cmd.isSome
          then (s.emit [.regRd .i2cStatus w]).takeDraw
          else ((s.emit [.regRd .i2cStatus w]).takeDraw).finish (some s.cur.loc.code)) :=
      ⟨_, (waitIdle_eq hv _).trans (congrArg Host.Outcome.next (if_congr Iff.rfl rfl (hdone _)))⟩
    obtain hi | rfl := mem_i2cOperations hi
    · obtain ⟨j, done, hsimple, hdone, -⟩ := exists_doesSimple s.cur.loc.second hi
      rw [hsimple .stop .abortIdle _ rfl s hph rfl]
      exact hturn done fun t => hdone _ t hcode
    · rw [i2cRtwbRs_does addr7 .stop .abortIdle _ s hph rfl]
      exact hturn returnCode fun _ => rfl

end Sys2Proof.Machine
end

section
/-! Runs of the I2C operations on a bus whose target answers every phase (44_i2c.md R290, R304, R313), phase by phase. -/

namespace Sys2Proof.Machine

/-! ### A state of such a run -/

/-- An event of the bus, no register access. -/
def isBus : Event → Bool
  | .regRd _ _ => false
  | .regWr _ _ => false
  | _ => true

/-- The state `s` with the I2C registers `x`, the memory `m`, the history longer by `hs`, the draws `d`, at a micro-step. -/
def State.onBus (s : State) (x : I2c) (m : Memory) (hs : List Event) (d : Draws) (st : I2cState) (pos : I2cPos) (l : Locals) : State :=
  { s with i2c := x, mem := m, history := s.history ++ hs, draws := d, cur := { s.cur with phase := .i2c st pos, loc := l } }

theorem State.onBus_emit (s : State) (x : I2c) (m : Memory) (hs es : List Event) (d : Draws) (st : I2cState) (pos : I2cPos) (l : Locals) :
    (s.onBus x m hs d st pos l).emit es = s.onBus x m (hs ++ es) d st pos l := by
  rw [State.onBus, State.onBus, ← List.append_assoc]
  rfl

theorem i2cEngine_onBus {s : State} {x : I2c} {m : Memory} {hs : List Event} {d : Draws} {st : I2cState} {pos : I2cPos} {l : Locals}
    {c : I2cCmd} {o : I2cOutcome} {row : I2cRow} (hc : x.cmd = some c) (hrow : i2cTable s.params x.own c o = some row) :
    i2cEngine o (s.onBus x m hs d st pos l) = s.onBus (x.complete row d.head) m (hs ++ row.events) d.next st pos l := by
  refine (i2cEngine_row (s := s.onBus x m hs d st pos l) hc hrow).trans ?_
  simp only [State.onBus, List.append_assoc]

/-- An operation begun in `s` stands between two phases, the bus events `es` behind it. -/
inductive BusAt (s : State) (es : List Event) (own : Bool) (data : Word) (m : Memory) (st : I2cState) (pos : I2cPos) (l : Locals) :
    State → Prop
  | intro (x : I2c) (hs : List Event) (d : Draws) (cmd : x.cmd = none) (owned : x.own = own) (free : x.extBusy = false)
      (held : x.data = data) (events : hs.filter isBus = es) : BusAt s es own data m st pos l (s.onBus x m hs d st pos l)

/-- A byte that went through DATA. -/
theorem byte_of_data (v : Word) : ((v.setWidth 8).setWidth 32).setWidth 8 = v.setWidth 8 := by simp

/-- The address byte on the bus (30_encoding.md R119, 44_i2c.md R290). -/
theorem addrEvent_addressByte (addr7 : Word) (read hit : Bool) :
    addrEvent ((((addressByte addr7 read).setWidth 8).setWidth 32).setWidth 8) hit = .i2cAddr (addr7.setWidth 7) read hit := by
  have haddr : ((addressByte addr7 read).setWidth 8).extractLsb' 1 7 = addr7.setWidth 7 := by
    apply BitVec.eq_of_getLsbD_eq
    intro k hk
    have hone : (boolWord read).getLsbD (1 + k) = false := by cases read <;> simp [boolWord]
    rw [BitVec.getLsbD_extractLsb', BitVec.getLsbD_setWidth, addressByte, BitVec.getLsbD_or, hone, Bool.or_false,
      BitVec.getLsbD_shiftLeft, BitVec.getLsbD_setWidth]
    simp [hk, show 1 + k < 8 by omega, show 1 + k < 32 by omega]
  have hdir : ((addressByte addr7 read).setWidth 8).getLsbD 0 = read := by cases read <;> simp [addressByte, boolWord]
  rw [byte_of_data, addrEvent, haddr, hdir]

namespace BusAt

variable {s t : State} {es : List Event} {own : Bool} {data : Word} {m : Memory} {st : I2cState} {pos : I2cPos} {l : Locals} {i : Instr}

theorem start (hc : s.i2c.cmd = none) (ho : s.i2c.own = false) (hx : s.i2c.extBusy = false) :
    BusAt s [] false s.i2c.data s.mem st pos l (s.toI2c st pos l) := by
  have h : s.toI2c st pos l = s.onBus s.i2c s.mem [] s.draws st pos l := by rw [State.onBus, List.append_nil]; rfl
  rw [h]
  exact .intro _ _ _ hc ho hx rfl rfl

theorem params (a : BusAt s es own data m st pos l t) : t.params = s.params := by cases a; rfl

theorem loc (a : BusAt s es own data m st pos l t) : t.cur.loc = l := by cases a; rfl

theorem mem (a : BusAt s es own data m st pos l t) : t.mem = m := by cases a; rfl

theorem exec_eq {f : State → Result} (a : BusAt s es own data m st pos l t) (h : Doing i st pos l f) : exec i t = f t := by
  cases a; exact h _ rfl rfl

theorem toI2c (a : BusAt s es own data m st pos l t) (st' : I2cState) (pos' : I2cPos) (l' : Locals) :
    BusAt s es own data m st' pos' l' (t.toI2c st' pos' l') := by
  cases a with | intro x hs d cmd owned free held events => exact .intro x hs d cmd owned free held events

theorem setMem (a : BusAt s es own data m st pos l t) (m' : Memory) : BusAt s es own data m' st pos l { t with mem := m' } := by
  cases a with | intro x hs d cmd owned free held events => exact .intro x hs d cmd owned free held events

theorem takeDraw (a : BusAt s es own data m st pos l t) : BusAt s es own data m st pos l t.takeDraw := by
  cases a with | intro x hs d cmd owned free held events => exact .intro x hs d.next cmd owned free held events

/-- A register access leaves the bus as it was. -/
theorem access (a : BusAt s es own data m st pos l t) {e : Event} (he : isBus e = false) : BusAt s es own data m st pos l (t.emit [e]) := by
  cases a with
  | intro x hs d cmd owned free held events =>
    rw [State.onBus_emit]
    exact .intro x _ d cmd owned free held (by simp [List.filter_append, events, he])

/-- The operation ends. -/
theorem finish (a : BusAt s es own data m st pos l t) (r : Option Word) : ∃ hs, hs.filter isBus = es ∧
    t.finish r = ({ s with i2c := t.i2c, mem := m, history := s.history ++ hs, draws := t.draws } : State).finish r ∧
    t.i2c.own = own ∧ t.i2c.cmd = none := by
  cases a with | intro x hs d cmd owned free held events => exact ⟨hs, events, rfl, owned, cmd⟩

/-! ### Its micro-steps -/

/-- A turn of `wait_idle()` finds the bus idle. -/
theorem waitIdle {k : State → State} (hv : s.params.Valid) (a : BusAt s es false data m st pos l t) :
    ∃ u, Machine.waitIdle k t = .next (k u) ∧ BusAt s es false data m st pos l u := by
  refine ⟨t.statusRead, ?_, (a.access rfl).takeDraw⟩
  cases a with
  | intro x hs d cmd owned free held events =>
    exact (waitIdle_eq (s := s.onBus x m hs d st pos l) hv k).trans
      (congrArg Host.Outcome.next (if_neg (by simp [State.onBus, cmd, owned, free])))

/-- A byte is put into DATA. -/
theorem putData (a : BusAt s es own data m st pos l t) (v : Word) (st' : I2cState) (pos' : I2cPos) :
    ∃ u, i2cPut .i2cData v st' pos' t = .next u ∧ BusAt s es own ((v.setWidth 8).setWidth 32) m st' pos' l u := by
  cases a with
  | intro x hs d cmd owned free held events =>
    refine ⟨_, congrArg (andThen · _) (regWrite_i2cData (s := s.onBus x m hs d st pos l) cmd), ?_⟩
    exact toI2c (access (.intro { x with data := (v.setWidth 8).setWidth 32 } hs d cmd owned free rfl events) rfl) st' pos' l

/-- DATA is read. -/
theorem readData (a : BusAt s es own data m st pos l t) :
    (regRead .i2cData t).1 = data ∧ BusAt s es own data m st pos l (regRead .i2cData t).2 := by
  refine ⟨?_, (a.access rfl).takeDraw⟩
  cases a with | intro x hs d cmd owned free held events => exact held

/-- A phase is commanded and the engine ends it with an outcome that is classified as OK. -/
theorem command {word : Word} {st' : I2cState} {pos' : I2cPos} {c : I2cCmd} {o : I2cOutcome} {row : I2cRow} {checkAck : Bool} {t' : State}
    (a : BusAt s es own data m st pos l t) (hput : exec i t' = i2cPut .i2cCtrl word st' pos' t)
    (hc : i2cCommand t.params word data = some c) (ha : i2cAllowed own c = true) (hrow : i2cTable t.params own c o = some row)
    (hok : row.error = false ∧ row.arbLost = false ∧ (checkAck = false ∨ row.ack = some t.params.ackIs1))
    (hbus : row.events.filter isBus = row.events) :
    ∃ u, play i [.host, .i2c o] t' = .next u ∧ PhaseOk u checkAck ∧ u.i2c.done = true ∧
      BusAt s (es ++ row.events) (row.own.getD own) ((row.data.map fun v => v.setWidth 32).getD data) m st' pos' l u := by
  cases a with
  | intro x hs d cmd owned free held events =>
    subst owned held
    have hwrite := regWrite_i2cCtrl (s := s.onBus x m hs d st pos l) cmd hc ha
    have hcommanded : exec i t' =
        .next (s.onBus (x.started c (d.head.getLsbD 0)) m (hs ++ [.regWr .i2cCtrl word]) d.next st' pos' l) := by
      rw [hput, i2cPut, hwrite, andThen_next, ← State.onBus_emit]
      rfl
    obtain ⟨herr, harb, hack⟩ := hok
    refine ⟨_, play_host hcommanded (congrArg Host.Outcome.next (i2cEngine_onBus (s := s) (x := x.started c (d.head.getLsbD 0)) rfl hrow)), ⟨herr, harb, hack.imp_right fun h => ?_⟩, rfl,
      .intro _ _ _ rfl rfl ?_ rfl ?_⟩
    · show row.ack.getD _ = _
      rw [h]
      rfl
    · show (x.extBusy && _) = false
      rw [free]
      rfl
    · rw [List.filter_append, List.filter_append, events, hbus]
      simp [isBus]

/-- A commanded phase, and the turn of `wait_done()` that sees it done. -/
theorem phase {word : Word} {st' : I2cState} {c : I2cCmd} {o : I2cOutcome} {row : I2cRow} {checkAck : Bool} {t' : State}
    {bad : Word → State → State} {k : State → State} (hv : s.params.Valid)
    (a : BusAt s es own data m st pos l t) (hput : exec i t' = i2cPut .i2cCtrl word st' .waitDone t)
    (hwait : Doing i st' .waitDone l (waitDone checkAck bad k))
    (hc : i2cCommand t.params word data = some c) (ha : i2cAllowed own c = true) (hrow : i2cTable t.params own c o = some row)
    (hok : row.error = false ∧ row.arbLost = false ∧ (checkAck = false ∨ row.ack = some t.params.ackIs1))
    (hbus : row.events.filter isBus = row.events) :
    ∃ u, play i [.host, .i2c o, .host] t' = .next (k u) ∧
      BusAt s (es ++ row.events) (row.own.getD own) ((row.data.map fun v => v.setWidth 32).getD data) m st' .waitDone l u := by
  obtain ⟨u, hplay, hpok, hdone, au⟩ := a.command hput hc ha hrow hok hbus
  have hvu : u.params.Valid := by rw [au.params]; exact hv
  have hturn := (au.exec_eq hwait).trans (waitDone_ok hvu hdone hpok)
  exact ⟨u.statusRead, by rw [show [Move.host, .i2c o, .host] = [.host, .i2c o] ++ [.host] from rfl, play_append, hplay, andThen_next, play_host hturn rfl]; rfl,
    (au.access rfl).takeDraw⟩

/-! ### Its phases -/

/-- The address of START or of the repeated START is sent and acknowledged (44_i2c.md R304, R313). -/
theorem address {addr7 : Word} {read : Bool} {word : Params → Word} {c : Byte → I2cCmd} {own' : Option Bool} {e : Event}
    {bad : Word → State → State} {k : State → State} (hv : s.params.Valid) (a : BusAt s es own data m st .addrData l t)
    (hdata : Doing i st .addrData l (i2cPut .i2cData (addressByte addr7 read) st .addrCtrl))
    (hctrl : Doing i st .addrCtrl l fun u => i2cPut .i2cCtrl (word u.params) .addrSent .waitDone u)
    (hwait : Doing i .addrSent .waitDone l (Machine.waitDone true bad k))
    (hc : ∀ p : Params, p.Valid → ∀ d, i2cCommand p (word p) d = some (c (d.setWidth 8)))
    (ha : ∀ b, i2cAllowed own (c b) = true)
    (hrow : ∀ p b, i2cTable p own (c b) .acked = some (ackRow p true own' [e, addrEvent b true])) (he : isBus e = true)
    (howned : own'.getD own = true) :
    ∃ u data', play i [.host, .host, .i2c .acked, .host] t = .next (k u) ∧
      BusAt s (es ++ [e, .i2cAddr (addr7.setWidth 7) read true]) true data' m .addrSent .waitDone l u := by
  obtain ⟨u, hput, au⟩ := a.putData (addressByte addr7 read) st .addrCtrl
  have hvu : u.params.Valid := by rw [au.params]; exact hv
  have hctrl' := au.exec_eq hctrl
  obtain ⟨u', hplay, au'⟩ := au.phase hv hctrl' hwait (hc _ hvu _) (ha _) (hrow _ _)
    ⟨rfl, rfl, .inr (by simp [ackRow])⟩ ((List.filter_cons_of_pos he).trans rfl)
  simp only [ackRow, howned, addrEvent_addressByte] at au'
  exact ⟨u', _, play_host ((a.exec_eq hdata).trans hput) hplay, au'⟩

/-- A byte is written and acknowledged (44_i2c.md R304, R313). -/
theorem writeByte {bad : Word → State → State} {k : State → State} (hv : s.params.Valid)
    (a : BusAt s es true data m .data .putData l t)
    (hdata : Doing i .data .putData l fun u => i2cPut .i2cData (u.cur.loc.byte.setWidth 32) .data .putCmd u)
    (hcmd : Doing i .data .putCmd l fun u => i2cPut .i2cCtrl u.params.i2cWrite .data .waitDone u)
    (hwait : Doing i .data .waitDone l (Machine.waitDone true bad k)) :
    ∃ u data', play i [.host, .host, .i2c .acked, .host] t = .next (k u) ∧
      BusAt s (es ++ [.i2cWrite l.byte true]) true data' m .data .waitDone l u := by
  obtain ⟨u, hput, au⟩ := a.putData (t.cur.loc.byte.setWidth 32) .data .putCmd
  have hvu : u.params.Valid := by rw [au.params]; exact hv
  have hcmd' := au.exec_eq hcmd
  have hbyte : (((t.cur.loc.byte.setWidth 32).setWidth 8).setWidth 32).setWidth 8 = l.byte := by rw [byte_of_data, a.loc]; simp
  obtain ⟨-, -, hword, -, -, -⟩ := i2cCommand_words hvu (((t.cur.loc.byte.setWidth 32).setWidth 8).setWidth 32)
  rw [hbyte] at hword
  obtain ⟨u', hplay, au'⟩ := au.phase hv hcmd' hwait hword rfl (o := .acked)
    (row := ackRow u.params true none [.i2cWrite l.byte true]) rfl ⟨rfl, rfl, .inr (by simp [ackRow])⟩ rfl
  exact ⟨u', _, play_host ((a.exec_eq hdata).trans hput) hplay, au'⟩

end BusAt

/-! ### The parts of a simple transaction -/

/-- An operation that begins on an idle bus goes on to the address byte. -/
theorem exec_begin {s : State} {i : Instr} {addr7 : Word} {b : Option Word} {len : Nat} (hv : s.params.Valid)
    (hexec : exec i s = i2cBegin addr7 b len firstWait s) (haddr : addr7.toNat ≤ 0x7F)
    (hb : bufferOverlaps s.params.bases b len = false) (hc : s.i2c.cmd = none) (ho : s.i2c.own = false) (hx : s.i2c.extBusy = false) :
    ∃ u, exec i s = .next u ∧ BusAt s [] false s.i2c.data s.mem .idle .addrData Locals.none u := by
  obtain ⟨u, hwait, au⟩ := (BusAt.start (st := .idle) (pos := .waitIdle) (l := Locals.none) hc ho hx).waitIdle hv
    (k := fun t => t.toI2c .idle .addrData t.cur.loc)
  refine ⟨_, hexec.trans ((i2cBegin_ok haddr hb).trans hwait), ?_⟩
  rw [au.loc]
  exact au.toI2c ..

namespace DoesSimple

variable {s t : State} {es : List Event} {own : Bool} {data : Word} {m : Memory} {st : I2cState} {pos : I2cPos} {l : Locals} {i : Instr}
  {j : I2cJob} {done : Word → State → State} (hv : s.params.Valid) (hi : DoesSimple i j done l.second)
include hv hi

theorem play_address (a : BusAt s es false data m .idle .addrData l t) :
    ∃ u data', play i [.host, .host, .i2c .acked, .host] t = .next (nextByte j 0 u) ∧
      BusAt s (es ++ [.i2cStart, .i2cAddr (j.addr7.setWidth 7) j.read true]) true data' m .addrSent .waitDone l u :=
  a.address (word := Params.i2cStart) (c := .start) (own' := some true) hv (hi .idle .addrData l rfl) (hi .idle .addrCtrl l rfl)
    (hi .addrSent .waitDone l rfl) (fun _ hp d => (i2cCommand_words hp d).1) (fun _ => rfl) (fun _ _ => rfl) rfl rfl

theorem play_stop (a : BusAt s es true data m st pos l t) :
    ∃ u data', play i [.host, .i2c .ok, .host, .host] (toStop t) = .next (done Config.ok u) ∧
      BusAt s (es ++ [.i2cStop]) false data' m .stop .waitIdle l u := by
  have ha : BusAt s es true data m .stop .putStop l (toStop t) := by rw [toStop, a.loc]; exact a.toI2c ..
  have hvt : (toStop t).params.Valid := by rw [ha.params]; exact hv
  have hput := ha.exec_eq (hi .stop .putStop l rfl)
  obtain ⟨-, -, -, -, -, hword⟩ := i2cCommand_words hvt data
  obtain ⟨u, hplay, au⟩ := ha.phase hv hput (hi .stop .waitDone l rfl) hword rfl (o := .ok)
    (row := { ack := none, arbLost := false, error := false, own := some false, data := none, events := [.i2cStop] }) rfl
    ⟨rfl, rfl, .inl rfl⟩ rfl
  rw [au.loc] at hplay
  obtain ⟨u', hturn, au'⟩ := (au.toI2c .stop .waitIdle l).waitIdle hv (k := done Config.ok)
  have hwait := (((au.toI2c .stop .waitIdle l)).exec_eq (hi .stop .waitIdle l rfl)).trans hturn
  exact ⟨u', _, (play_append i [.host, .i2c .ok, .host] [.host] (toStop t)).trans (by rw [hplay, andThen_next]; exact play_host hwait rfl), au'⟩

/-- The byte `l.byte` is written, and the next one is begun. -/
theorem play_writeByte (hr : j.read = false) (hn : j.nackLast = 0#32) (a : BusAt s es true data m .data .putData l t) :
    ∃ u data', play i [.host, .host, .i2c .acked, .host] t = .next (nextByte j (l.idx + 1) u) ∧
      BusAt s (es ++ [.i2cWrite l.byte true]) true data' m .data .waitDone l u := by
  have hcmd : Doing i .data .putCmd l fun u => i2cPut .i2cCtrl u.params.i2cWrite .data .waitDone u := fun u hp hl => by
    rw [hi .data .putCmd l rfl u hp hl, show simpleSteps j done .data .putCmd u = putDataCommand j u from rfl, putDataCommand, hn,
      withOperand_fits (by decide), dataCommand, hr]
    rfl
  have hwait : Doing i .data .waitDone l (waitDone true toAbort fun u => nextByte j (u.cur.loc.idx + 1) u) := fun u hp hl => by
    rw [hi .data .waitDone l rfl u hp hl, simpleSteps, hr]
    rfl
  obtain ⟨u, data', hplay, au⟩ := a.writeByte hv (hi .data .putData l rfl) hcmd hwait
  rw [au.loc] at hplay
  exact ⟨u, data', hplay, au⟩

end DoesSimple

end Sys2Proof.Machine
end

section
/-! The I2C operations on a bus whose target answers every phase (44_i2c.md R310 to R313). -/

namespace Sys2Proof.Machine

theorem play_trans {i : Instr} {a b : List Move} {s t : State} {r : Result} (h : play i a s = .next t) (h' : play i b t = r) :
    play i (a ++ b) s = r := by rw [play_append, h, andThen_next, h']

/-! ### I2C.WRITE_N -/

theorem memRead_byte {a : Nat} {s : State} (k : Word → Result) (ha : a < 2 ^ 32) : memRead a .w8 s k = k (s.mem.load a .w8) :=
  memRead_aligned k (Nat.mod_one a) ha

theorem load_byte (m : Memory) (a : Nat) : (m.load a .w8).setWidth 8 = m.read a := by
  have h := Memory.byteOf_load (m := m) (a := a) (w := .w8) (k := 0) (by decide)
  exact BitVec.setWidth_eq_extractLsb' (by decide) |>.trans h

/-- The locals at the first micro-step of data byte `idx`. -/
def Locals.atByte (l : Locals) (idx : Nat) : Locals := { l with idx := idx }

/-- The locals that hold a byte. -/
def Locals.holding (l : Locals) (b : Byte) : Locals := { l with byte := b }

section
variable {s : State} {i : Instr} {j : I2cJob} {done : Word → State → State} {b : Bool}

/-- The bytes of the buffer are written in order, from byte `x` on (44_i2c.md R310). -/
theorem play_writeBytes {a : Word} (hv : s.params.Valid) (hi : DoesSimple i j done b) (hr : j.read = false) (hn : j.nackLast = 0#32)
    (hbuf : j.buf = some a) (hfit : a.toNat + j.count ≤ 2 ^ 32) {m : Memory} (k : Nat) :
    ∀ {x : Nat} {es : List Event} {data : Word} {st : I2cState} {pos : I2cPos} {l : Locals} {t : State}, x + k = j.count →
      l.second = b → BusAt s es true data m st pos l t →
      ∃ u data' st' pos' l', play i (List.replicate k [.host, .host, .host, .i2c .acked, .host]).flatten (nextByte j x t) = .next (toStop u) ∧
        l'.second = b ∧ BusAt s (es ++ (List.range' x k).map fun y => .i2cWrite (m.read (a.toNat + y)) true) true data' m st' pos' l' u := by
  induction k with
  | zero =>
    intro x es data st pos l t hx hl at_
    refine ⟨t, data, st, pos, l, ?_, hl, ?_⟩
    · rw [nextByte, if_neg (by omega)]
      rfl
    · rw [List.range'_zero, List.map_nil, List.append_nil]
      exact at_
  | succ k ih =>
    intro x es data st pos l t hx hl at_
    have hload : nextByte j x t = t.toI2c .data .load (l.atByte x) := by
      rw [nextByte, if_pos (by omega), hr, hbuf, at_.loc]
      rfl
    have aload := at_.toI2c .data .load (l.atByte x)
    have hexec : exec i (nextByte j x t) = .next (((t.toI2c .data .load (l.atByte x)).toI2c .data .putData
        ((l.atByte x).holding (m.read (a.toNat + x))))) := by
      rw [hload, aload.exec_eq (hi .data .load _ hl), show simpleSteps j done .data .load _ = loadByte j _ from rfl, loadByte, hbuf]
      refine (memRead_byte _ ?_).trans ?_
      · show a.toNat + x < _
        omega
      · rw [aload.mem, load_byte]
        rfl
    obtain ⟨u, data', hplay, au⟩ := DoesSimple.play_writeByte hv (l := (l.atByte x).holding (m.read (a.toNat + x)))
      (hl ▸ hi) hr hn (aload.toI2c .data .putData _)
    obtain ⟨u', data'', st', pos', l', hrest, hl', au'⟩ := ih (x := x + 1) (by omega) (show ((l.atByte x).holding _).second = b from hl) au
    refine ⟨u', data'', st', pos', l', ?_, hl', ?_⟩
    · rw [List.replicate_succ, List.flatten_cons]
      exact play_trans (play_host hexec hplay) hrest
    · rw [List.range'_succ, List.map_cons, List.append_cons]
      exact au'

end

/-- Settles O43. -/
theorem i2cWriteNSendsTheBufferInOrder : Obligations.I2cWriteNSendsTheBufferInOrder := by
  intro s addr7 buf n hv hidle hc ho hx haddr hover hfit
  have hi := i2cWriteN_doesSimple addr7 buf n false
  obtain ⟨u₁, hbegin, a₁⟩ := exec_begin hv (exec_i2cBuffer_idle (nackLast := 0#32) hidle (show .i2cWriteN addr7 buf n ∈ _ by simp)) haddr hover hc ho hx
  obtain ⟨u₂, _, haddress, a₂⟩ := DoesSimple.play_address hv hi a₁
  obtain ⟨u₃, _, _, _, l, hbytes, hl, a₃⟩ := play_writeBytes hv hi rfl rfl rfl hfit n.toNat (x := 0) (Nat.zero_add _) rfl a₂
  obtain ⟨u₄, _, hstop, a₄⟩ := DoesSimple.play_stop hv (hl ▸ hi) a₃
  obtain ⟨hs, hes, hfinish, hown, hcmd⟩ := a₄.finish (some 0#32)
  refine ⟨⟨_, hbegin⟩, _, hs, play_trans (play_trans (play_host hbegin haddress) hbytes) hstop, hfinish, hown, hcmd, ?_⟩
  rw [List.range_eq_range']
  exact hes

end Sys2Proof.Machine
end

section
/-! I2C.READ_N and the read-back operations on a bus whose target answers every phase (44_i2c.md R311 to R313). -/

namespace Sys2Proof.Machine

/-! ### I2C.READ_N -/

/-- Bytes written one after the other from `a` on. -/
def Memory.writeBytes (m : Memory) (a : Nat) : List Byte → Memory
  | [] => m
  | v :: vs => Memory.writeBytes (m.write a v) (a + 1) vs

theorem Memory.read_writeBytes_other {vs : List Byte} {m : Memory} {a x : Nat} (hx : x < a ∨ a + vs.length ≤ x) :
    (m.writeBytes a vs).read x = m.read x := by
  induction vs generalizing m a with
  | nil => rfl
  | cons v vs ih =>
    rw [List.length_cons] at hx
    rw [Memory.writeBytes, ih (by omega), Memory.read_write_other (by omega)]

theorem Memory.read_writeBytes {vs : List Byte} {m : Memory} {a : Nat} (hm : m.wf) (ha : a + vs.length ≤ Config.addressSpace)
    {k : Nat} (hk : k < vs.length) : (m.writeBytes a vs).read (a + k) = vs[k] := by
  induction vs generalizing m a k with
  | nil => simp at hk
  | cons v vs ih =>
    rw [List.length_cons] at ha hk
    rw [Memory.writeBytes]
    cases k with
    | zero => rw [Memory.read_writeBytes_other (by omega), Nat.add_zero, Memory.read_write_same hm]; rfl
    | succ k =>
      rw [show a + (k + 1) = a + 1 + k by omega, ih (Memory.write_wf hm (by omega)) (by omega) (by omega)]
      rfl

theorem memWrite_byte {a : Nat} {s : State} (b : Byte) (ha : a < 2 ^ 32) :
    memWrite a .w8 (b.setWidth 32) s = .next { s with mem := s.mem.write a b } := by
  refine (memWrite_aligned _ (Nat.mod_one a) ha).trans ?_
  have hb : byteOf (b.setWidth 32) 0 = b := by
    rw [byteOf, ← BitVec.setWidth_eq_extractLsb' (by decide)]
    simp
  rw [Memory.store, hb]

/-- The operand of the data command is used as one bit, a free one where it is none (notes/assumptions/26.md). -/
theorem putDataCommand_eq {s t : State} {es : List Event} {own : Bool} {data : Word} {m : Memory} {st : I2cState} {pos : I2cPos} {l : Locals}
    {j : I2cJob} (hr : j.read = true) (a : BusAt s es own data m st pos l t) :
    ∃ (nack : Bool) (u : State), (j.nackLast.toNat < 2 → nack = decide (j.nackLast = 1#32)) ∧ BusAt s es own data m st pos l u ∧
      putDataCommand j t = i2cPut .i2cCtrl
        (if (decide (l.idx + 1 = j.count) && nack) = true then u.params.i2cReadNack else u.params.i2cReadAck) .data .waitDone u := by
  have hword (y : Word) {u : State} (au : BusAt s es own data m st pos l u) : dataCommand u.params j y u.cur.loc.idx =
      if (decide (l.idx + 1 = j.count) && decide (y = 1#32)) = true then u.params.i2cReadNack else u.params.i2cReadAck := by
    rw [dataCommand, hr, au.loc, if_pos rfl]
    simp only [Bool.and_eq_true, decide_eq_true_eq]
  obtain ⟨-, h⟩ | ⟨hwide, y, -, h⟩ := withOperand_cases 1 (by decide) j.nackLast
    (fun k t => i2cPut .i2cCtrl (dataCommand t.params j k t.cur.loc.idx) .data .waitDone t) t
  · exact ⟨_, t, fun _ => rfl, a, h.trans (by rw [hword _ a])⟩
  · exact ⟨decide (y = 1#32), t.takeDraw, fun hlt => absurd hlt (by omega), a.takeDraw, h.trans (by rw [hword _ a.takeDraw])⟩

namespace BusAt

variable {s t : State} {es : List Event} {data : Word} {m : Memory} {l : Locals} {i : Instr}

/-- A byte is read and answered (44_i2c.md R304). -/
theorem readByte {t' : State} {st : I2cState} {pos : I2cPos} {bad : Word → State → State} {k : State → State} {nack : Bool}
    (hv : s.params.Valid) (v : Byte) (a : BusAt s es true data m st pos l t)
    (hput : exec i t' = i2cPut .i2cCtrl (if nack = true then t.params.i2cReadNack else t.params.i2cReadAck) .data .waitDone t)
    (hwait : Doing i .data .waitDone l (Machine.waitDone false bad k)) :
    ∃ u, play i [.host, .i2c (.byte v), .host] t' = .next (k u) ∧
      BusAt s (es ++ [.i2cRead v (!nack)]) true (v.setWidth 32) m .data .waitDone l u := by
  have hvt : t.params.Valid := by rw [a.params]; exact hv
  obtain ⟨-, -, -, hack, hnack, -⟩ := i2cCommand_words hvt data
  have hword : i2cCommand t.params (if nack = true then t.params.i2cReadNack else t.params.i2cReadAck) data = some (.read !nack) := by
    cases nack
    · exact hack
    · exact hnack
  exact a.phase hv hput hwait hword rfl (o := .byte v)
    (row := { ack := none, arbLost := false, error := false, own := none, data := some v, events := [.i2cRead v !nack] })
    rfl ⟨rfl, rfl, .inl rfl⟩ rfl

end BusAt

section
variable {s t : State} {es : List Event} {data : Word} {m : Memory} {l : Locals} {i : Instr} {j : I2cJob}
  {done : Word → State → State}

/-- A byte of a simple transaction is read and taken from DATA. -/
theorem DoesSimple.play_readByte (hv : s.params.Valid) (hi : DoesSimple i j done l.second) (hr : j.read = true) (v : Byte)
    (a : BusAt s es true data m .data .putCmd l t) :
    ∃ (nack : Bool) (u : State), (j.nackLast.toNat < 2 → nack = decide (j.nackLast = 1#32)) ∧
      play i [.host, .i2c (.byte v), .host, .host] t = .next (byteReceived j (v.setWidth 32) u) ∧
      BusAt s (es ++ [.i2cRead v (!(decide (l.idx + 1 = j.count) && nack))]) true (v.setWidth 32) m .data .getData l u := by
  obtain ⟨nack, t', hnack, a', hcmd⟩ := putDataCommand_eq hr a
  have hput := (a.exec_eq (hi .data .putCmd l rfl)).trans hcmd
  have hwait : Doing i .data .waitDone l (waitDone false toAbort fun u => u.toI2c .data .getData u.cur.loc) := fun u hp hl => by
    rw [hi .data .waitDone l rfl u hp hl, simpleSteps, hr]
    rfl
  obtain ⟨u, hplay, au⟩ := a'.readByte hv v hput hwait
  rw [au.loc] at hplay
  obtain ⟨hdata, au'⟩ := (au.toI2c .data .getData l).readData
  have hget : exec i (u.toI2c .data .getData l) = .next (byteReceived j (v.setWidth 32) (regRead .i2cData (u.toI2c .data .getData l)).2) := by
    rw [(au.toI2c .data .getData l).exec_eq (hi .data .getData l rfl), ← hdata]
    rfl
  exact ⟨nack, _, hnack, play_trans hplay (play_host hget rfl), au'⟩

/-- The bytes are read into the buffer in order, from byte `x` on (44_i2c.md R311). -/
theorem play_readBytes {a : Word} {b : Bool} (hv : s.params.Valid) (hi : DoesSimple i j done b) (hr : j.read = true)
    (hbuf : j.buf = some a) (hfit : a.toNat + j.count ≤ 2 ^ 32) (vs : List Byte) :
    ∀ {x : Nat} {es : List Event} {data : Word} {m : Memory} {st : I2cState} {pos : I2cPos} {l : Locals} {t : State},
      x + vs.length = j.count → l.second = b → BusAt s es true data m st pos l t →
      ∃ (nack : Bool) (u : State) (data' : Word) (st' : I2cState) (pos' : I2cPos) (l' : Locals),
        (j.nackLast.toNat < 2 → nack = decide (j.nackLast = 1#32)) ∧
        play i (vs.map fun v => [Move.host, .i2c (.byte v), .host, .host, .host]).flatten (nextByte j x t) = .next (toStop u) ∧
        l'.second = b ∧ BusAt s (es ++ vs.mapIdx fun y v => .i2cRead v (!(decide (x + y + 1 = j.count) && nack))) true data'
          (m.writeBytes (a.toNat + x) vs) st' pos' l' u := by
  induction vs with
  | nil =>
    intro x es data m st pos l t hx hl at_
    refine ⟨decide (j.nackLast = 1#32), t, data, st, pos, l, fun _ => rfl, ?_, hl, ?_⟩
    · rw [nextByte, if_neg (by simp at hx; omega)]
      rfl
    · rw [List.mapIdx_nil, List.append_nil]
      exact at_
  | cons v vs ih =>
    intro x es data m st pos l t hx hl at_
    rw [List.length_cons] at hx
    have hnext : nextByte j x t = t.toI2c .data .putCmd (l.atByte x) := by
      rw [nextByte, if_pos (by omega), hr, at_.loc]
      rfl
    obtain ⟨nack₁, u₁, hnack₁, hread, a₁⟩ := DoesSimple.play_readByte hv (l := l.atByte x) (hl ▸ hi) hr v
      (at_.toI2c .data .putCmd (l.atByte x))
    have hreceived : byteReceived j (v.setWidth 32) u₁ = u₁.toI2c .data .store ((l.atByte x).holding v) := by
      rw [byteReceived, hbuf, a₁.loc]
      simp [Locals.holding]
    have astore := a₁.toI2c .data .store ((l.atByte x).holding v)
    have hstore : exec i (byteReceived j (v.setWidth 32) u₁) =
        .next (nextByte j (x + 1) { u₁.toI2c .data .store ((l.atByte x).holding v) with mem := m.write (a.toNat + x) v }) := by
      rw [hreceived, astore.exec_eq (hi .data .store _ hl), show simpleSteps j done .data .store _ = storeByte j _ from rfl, storeByte, hbuf]
      refine (congrArg (andThen · _) (memWrite_byte v ?_)).trans ?_
      · show a.toNat + x < _
        omega
      · rw [astore.mem]
        rfl
    obtain ⟨nack₂, u₂, data', st', pos', l', hnack₂, hrest, hl', a₂⟩ := ih (x := x + 1) (by omega)
      (show ((l.atByte x).holding v).second = b from hl) (astore.setMem (m.write (a.toNat + x) v))
    obtain ⟨nack, hnack, hfirst, hothers⟩ : ∃ nack : Bool, (j.nackLast.toNat < 2 → nack = decide (j.nackLast = 1#32)) ∧
        (decide (x + 1 = j.count) && nack₁) = (decide (x + 1 = j.count) && nack) ∧ (vs ≠ [] → nack = nack₂) := by
      cases vs with
      | nil => exact ⟨nack₁, hnack₁, rfl, fun h => absurd rfl h⟩
      | cons w ws =>
        have hmore : decide (x + 1 = j.count) = false := decide_eq_false (by rw [List.length_cons] at hx; omega)
        exact ⟨nack₂, hnack₂, by rw [hmore, Bool.false_and, Bool.false_and], fun _ => rfl⟩
    have hevents : (vs.mapIdx fun y v => Event.i2cRead v (!(decide (x + 1 + y + 1 = j.count) && nack₂))) =
        vs.mapIdx fun y v => Event.i2cRead v (!(decide (x + (y + 1) + 1 = j.count) && nack)) := by
      cases vs with
      | nil => rfl
      | cons w ws =>
        rw [hothers (List.cons_ne_nil _ _)]
        simp only [Nat.add_assoc, Nat.add_comm 1]
    have hbyte := play_trans (b := [.host]) (r := .next _) hread (play_host hstore rfl)
    refine ⟨nack, u₂, data', st', pos', l', hnack, ?_, hl', ?_⟩
    · rw [List.map_cons, List.flatten_cons]
      rw [← hnext] at hbyte
      exact play_trans hbyte hrest
    · rw [List.mapIdx_cons, List.append_cons, Nat.add_zero, ← hevents, ← hfirst]
      exact a₂

end

/-- Settles O44. -/
theorem i2cReadNFillsTheBuffer : Obligations.I2cReadNFillsTheBuffer := by
  intro s addr7 buf n nackLast vs hv hwf hidle hc ho hx haddr hover hfit hlen
  have hi := i2cReadN_doesSimple addr7 buf n nackLast false
  obtain ⟨u₁, hbegin, a₁⟩ := exec_begin hv (exec_i2cBuffer_idle (nackLast := nackLast) hidle (show .i2cReadN addr7 buf n nackLast ∈ _ by simp)) haddr hover hc ho hx
  obtain ⟨u₂, _, haddress, a₂⟩ := DoesSimple.play_address hv hi a₁
  obtain ⟨nack, u₃, _, _, _, l, hnack, hbytes, hl, a₃⟩ := play_readBytes hv hi rfl rfl hfit vs (x := 0) ((Nat.zero_add _).trans hlen) rfl a₂
  obtain ⟨u₄, _, hstop, a₄⟩ := DoesSimple.play_stop hv (hl ▸ hi) a₃
  obtain ⟨hs, hes, hfinish, hown, hcmd⟩ := a₄.finish (some 0#32)
  have hmem : (returnCode Config.ok u₄).mem = s.mem.writeBytes buf.toNat vs := a₄.mem
  refine ⟨⟨_, hbegin⟩, nack, _, hs, hnack, play_trans (play_trans (play_host hbegin haddress) hbytes) hstop, ?_, hown, hcmd,
    fun k hk => ?_, fun x hx => ?_, ?_⟩
  · rw [hmem]; exact hfinish
  · rw [hmem, Memory.read_writeBytes hwf (by rw [hlen]; exact hfit)]
  · rw [hmem, Memory.read_writeBytes_other (by rw [hlen]; exact hx)]
  · refine hes.trans ?_
    simp only [Nat.zero_add]
    rfl

end Sys2Proof.Machine
end

section
/-! The read-back operations of I2C on a bus whose target answers every phase (44_i2c.md R312, R313). -/

namespace Sys2Proof.Machine

/-! ### I2C.RTWB -/

/-- The locals of the second transaction, which writes `v` back (44_i2c.md R312). -/
def writeBackLocals (v : Byte) : Locals := { Locals.none with byte := v, second := true }

section
variable {s t : State} {es : List Event} {data : Word} {m : Memory} {addr7 : Word}

/-- The one byte of the first transaction is read, and its STOP follows. -/
theorem rtwb_play_read (hv : s.params.Valid) (v : Byte) {u : State} (a : BusAt s es true data m .addrSent .waitDone Locals.none u) :
    ∃ u' data', play (.i2cRtwb addr7) [.host, .i2c (.byte v), .host, .host, .host, .i2c .ok, .host, .host]
        (nextByte (rtwbRead addr7) 0 u) = .next u' ∧
      BusAt s (es ++ [.i2cRead v false, .i2cStop]) false data' m .idle .waitIdle (writeBackLocals v) u' := by
  have hi := i2cRtwb_reads addr7
  have hfirst : nextByte (rtwbRead addr7) 0 u = u.toI2c .data .putCmd (Locals.none.atByte 0) := by
    rw [nextByte, if_pos (show 0 < (rtwbRead addr7).count from Nat.zero_lt_one), a.loc]
    rfl
  obtain ⟨nack, u₁, hnack, hread, a₁⟩ := DoesSimple.play_readByte hv (l := Locals.none.atByte 0) hi rfl v (a.toI2c .data .putCmd _)
  have hreceived : byteReceived (rtwbRead addr7) (v.setWidth 32) u₁ =
      toStop (u₁.toI2c .data .getData ((Locals.none.atByte 0).holding v)) := by
    rw [byteReceived, a₁.loc]
    simp [Locals.holding, Locals.atByte, rtwbRead, nextByte]
  obtain ⟨u₂, data', hstop, a₂⟩ := DoesSimple.play_stop hv hi (a₁.toI2c .data .getData ((Locals.none.atByte 0).holding v))
  have hturn : rtwbTurn Config.ok u₂ = u₂.toI2c .idle .waitIdle (writeBackLocals v) := by
    rw [rtwbTurn, if_pos rfl, a₂.loc]
    rfl
  obtain rfl : nack = true := hnack (show (1#32 : Word).toNat < 2 by decide)
  rw [hreceived] at hread
  refine ⟨u₂.toI2c .idle .waitIdle (writeBackLocals v), data', ?_, ?_⟩
  · rw [hfirst, ← hturn]
    exact play_trans hread hstop
  · rw [List.append_cons]
    exact a₂.toI2c ..

/-- A byte that stands in the locals is written back by the second transaction. -/
theorem rtwb_play_write (hv : s.params.Valid) (v : Byte) {u : State} (a : BusAt s es false data m .idle .waitIdle (writeBackLocals v) u) :
    ∃ u' data', play (.i2cRtwb addr7) [.host, .host, .host, .i2c .acked, .host, .host, .host, .i2c .acked, .host, .host, .i2c .ok,
        .host, .host] u = .next (returnCode Config.ok u') ∧
      BusAt s (es ++ [.i2cStart, .i2cAddr (addr7.setWidth 7) false true, .i2cWrite v true, .i2cStop]) false data' m .stop .waitIdle (writeBackLocals v) u' := by
  have hi := i2cRtwb_writes addr7
  obtain ⟨u₁, hwait, a₁⟩ := a.waitIdle hv (k := fun t => t.toI2c .idle .addrData t.cur.loc)
  have hbegin := (a.exec_eq (hi .idle .waitIdle _ rfl)).trans hwait
  rw [a₁.loc] at hbegin
  obtain ⟨u₂, _, haddress, a₂⟩ := DoesSimple.play_address hv hi (a₁.toI2c .idle .addrData (writeBackLocals v))
  have hfirst : nextByte (rtwbWrite addr7) 0 u₂ = u₂.toI2c .data .putData (writeBackLocals v) := by
    rw [nextByte, if_pos (show 0 < (rtwbWrite addr7).count from Nat.zero_lt_one), a₂.loc]
    rfl
  obtain ⟨u₃, _, hwrite, a₃⟩ := DoesSimple.play_writeByte hv hi rfl rfl (a₂.toI2c .data .putData (writeBackLocals v))
  have hlast : nextByte (rtwbWrite addr7) ((writeBackLocals v).idx + 1) u₃ = toStop u₃ := if_neg (Nat.lt_irrefl 1)
  obtain ⟨u₄, data', hstop, a₄⟩ := DoesSimple.play_stop hv hi a₃
  rw [hfirst] at haddress
  rw [hlast] at hwrite
  refine ⟨u₄, data', play_trans (play_trans (play_host hbegin haddress) hwrite) hstop, ?_⟩
  rw [show es ++ [_, _, _, _] = es ++ [.i2cStart, .i2cAddr (addr7.setWidth 7) false true] ++ [.i2cWrite v true] ++ [.i2cStop] by simp]
  exact a₄

end

/-- Settles O45. -/
theorem i2cRtwbReadsThenWritesBack : Obligations.I2cRtwbReadsThenWritesBack := by
  intro s addr7 v hv hidle hc ho hx haddr
  obtain ⟨u₁, hbegin, a₁⟩ := exec_begin hv (exec_i2cRtwb_idle hidle) haddr rfl hc ho hx
  obtain ⟨u₂, _, haddress, a₂⟩ := DoesSimple.play_address hv (i2cRtwb_reads addr7) a₁
  obtain ⟨u₃, _, hread, a₃⟩ := rtwb_play_read (addr7 := addr7) hv v a₂
  obtain ⟨u₄, _, hwrite, a₄⟩ := rtwb_play_write (addr7 := addr7) hv v a₃
  obtain ⟨hs, hes, hfinish, hown, hcmd⟩ := a₄.finish (some 0#32)
  exact ⟨⟨_, hbegin⟩, _, hs, play_trans (play_trans (play_host hbegin haddress) hread) hwrite, hfinish, hown, hcmd, hes⟩

/-! ### I2C.RTWB_RS -/

section
variable {s t : State} {es : List Event} {data : Word} {m : Memory} {addr7 : Word}

/-- START and the address for reading (44_i2c.md R313). -/
theorem rtwbRs_play_start (hv : s.params.Valid) (a : BusAt s es false data m .idle .addrData Locals.none t) :
    ∃ u data', play (.i2cRtwbRs addr7) [.host, .host, .i2c .acked, .host] t = .next u ∧
      BusAt s (es ++ [.i2cStart, .i2cAddr (addr7.setWidth 7) true true]) true data' m .data .putCmd Locals.none u := by
  have hi := i2cRtwbRs_does addr7
  obtain ⟨u, data', hplay, au⟩ := a.address (word := Params.i2cStart) (c := .start) (own' := some true) hv (hi .idle .addrData _)
    (hi .idle .addrCtrl _) (hi .addrSent .waitDone _) (fun _ hp d => (i2cCommand_words hp d).1) (fun _ => rfl) (fun _ _ => rfl) rfl rfl
  rw [au.loc] at hplay
  exact ⟨_, data', hplay, au.toI2c ..⟩

/-- The byte is read, answered with NACK, and kept; the repeated START is next. -/
theorem rtwbRs_play_read (hv : s.params.Valid) (v : Byte) (a : BusAt s es true data m .data .putCmd Locals.none t) :
    ∃ u data', play (.i2cRtwbRs addr7) [.host, .i2c (.byte v), .host, .host] t = .next u ∧
      BusAt s (es ++ [.i2cRead v false]) true data' m .restart .addrData (writeBackLocals v) u := by
  have hi := i2cRtwbRs_does addr7
  have hcmd := a.exec_eq (hi .data .putCmd _)
  have hput : exec (.i2cRtwbRs addr7) t =
      i2cPut .i2cCtrl (if true = true then t.params.i2cReadNack else t.params.i2cReadAck) .data .waitDone t := by
    rw [hcmd, repeatedStartSteps, a.loc]
    rfl
  have hwait : Doing (.i2cRtwbRs addr7) .data .waitDone Locals.none
      (waitDone false toAbort fun u => if u.cur.loc.second then toStop u else u.toI2c .data .getData u.cur.loc) := fun u hp hl => by
    rw [hi .data .waitDone _ u hp hl, repeatedStartSteps, hl]
    rfl
  obtain ⟨u, hplay, au⟩ := a.readByte hv v hput hwait
  rw [au.loc] at hplay
  have aget := au.toI2c .data .getData Locals.none
  obtain ⟨hdata, aread⟩ := aget.readData
  have hget : exec (.i2cRtwbRs addr7) (u.toI2c .data .getData Locals.none) =
      .next ((regRead .i2cData (u.toI2c .data .getData Locals.none)).2.toI2c .restart .addrData (writeBackLocals v)) := by
    rw [aget.exec_eq (hi .data .getData _), repeatedStartSteps, hdata, aget.loc, BitVec.setWidth_setWidth_of_le _ (by decide), BitVec.setWidth_eq]
    rfl
  exact ⟨_, _, play_trans hplay (play_host hget rfl), aread.toI2c ..⟩

/-- The repeated START, the address for writing and the byte written back. -/
theorem rtwbRs_play_write (hv : s.params.Valid) (v : Byte) (a : BusAt s es true data m .restart .addrData (writeBackLocals v) t) :
    ∃ u data', play (.i2cRtwbRs addr7) [.host, .host, .i2c .acked, .host, .host, .host, .i2c .acked, .host] t = .next (toStop u) ∧
      BusAt s (es ++ [.i2cRestart, .i2cAddr (addr7.setWidth 7) false true, .i2cWrite v true]) true data' m .data .waitDone
        (writeBackLocals v) u := by
  have hi := i2cRtwbRs_does addr7
  obtain ⟨u, _, haddress, au⟩ := a.address (word := Params.i2cRestart) (c := .restart) (own' := none) hv (hi .restart .addrData _)
    (hi .restart .addrCtrl _) (hi .addrSent .waitDone _) (fun _ hp d => (i2cCommand_words hp d).2.1) (fun _ => rfl) (fun _ _ => rfl) rfl rfl
  rw [au.loc] at haddress
  have hcmd : Doing (.i2cRtwbRs addr7) .data .putCmd (writeBackLocals v)
      fun u => i2cPut .i2cCtrl u.params.i2cWrite .data .waitDone u := fun u hp hl => by
    rw [hi .data .putCmd _ u hp hl, repeatedStartSteps, hl]
    rfl
  have hwait : Doing (.i2cRtwbRs addr7) .data .waitDone (writeBackLocals v)
      (waitDone true toAbort fun u => if u.cur.loc.second then toStop u else u.toI2c .data .getData u.cur.loc) := fun u hp hl => by
    rw [hi .data .waitDone _ u hp hl, repeatedStartSteps, hl]
    rfl
  obtain ⟨u', data', hwrite, au'⟩ := (au.toI2c .data .putData (writeBackLocals v)).writeByte hv (hi .data .putData _) hcmd hwait
  rw [au'.loc] at hwrite
  refine ⟨u', data', play_trans haddress hwrite, ?_⟩
  rw [show es ++ [_, _, _] = es ++ [.i2cRestart, .i2cAddr (addr7.setWidth 7) false true] ++ [.i2cWrite v true] by simp]
  exact au'

/-- The STOP at the end, with no turn of `wait_done()`. -/
theorem rtwbRs_play_stop (hv : s.params.Valid) {st : I2cState} {pos : I2cPos} {l : Locals} (a : BusAt s es true data m st pos l t) :
    ∃ u data', play (.i2cRtwbRs addr7) [.host, .i2c .ok, .host] (toStop t) = .next (returnCode Config.ok u) ∧
      BusAt s (es ++ [.i2cStop]) false data' m .stop .waitIdle l u := by
  have hi := i2cRtwbRs_does addr7
  have astop : BusAt s es true data m .stop .putStop l (toStop t) := by rw [toStop, a.loc]; exact a.toI2c ..
  have hvt : (toStop t).params.Valid := by rw [astop.params]; exact hv
  have hput := astop.exec_eq (hi .stop .putStop l)
  obtain ⟨-, -, -, -, -, hword⟩ := i2cCommand_words hvt data
  obtain ⟨u, hplay, -, -, au⟩ := astop.command (checkAck := false) hput hword rfl (o := .ok)
    (row := { ack := none, arbLost := false, error := false, own := some false, data := none, events := [.i2cStop] }) rfl
    ⟨rfl, rfl, .inl rfl⟩ rfl
  obtain ⟨u', hturn, au'⟩ := BusAt.waitIdle (k := returnCode Config.ok) hv au
  exact ⟨u', _, play_trans hplay (play_host ((au.exec_eq (hi .stop .waitIdle l)).trans hturn) rfl), au'⟩

end

/-- Settles O46. -/
theorem i2cRtwbRsUsesARepeatedStart : Obligations.I2cRtwbRsUsesARepeatedStart := by
  intro s addr7 v hv hidle hc ho hx haddr
  obtain ⟨u₁, hbegin, a₁⟩ := exec_begin hv (exec_i2cRtwbRs_idle hidle) haddr rfl hc ho hx
  obtain ⟨u₂, _, hstart, a₂⟩ := rtwbRs_play_start (addr7 := addr7) hv a₁
  obtain ⟨u₃, _, hread, a₃⟩ := rtwbRs_play_read (addr7 := addr7) hv v a₂
  obtain ⟨u₄, _, hwrite, a₄⟩ := rtwbRs_play_write (addr7 := addr7) hv v a₃
  obtain ⟨u₅, _, hstop, a₅⟩ := rtwbRs_play_stop (addr7 := addr7) hv a₄
  obtain ⟨hs, hes, hfinish, hown, hcmd⟩ := a₅.finish (some 0#32)
  exact ⟨⟨_, hbegin⟩, _, hs, play_trans (play_trans (play_trans (play_host hbegin hstart) hread) hwrite) hstop, hfinish, hown, hcmd, hes⟩

end Sys2Proof.Machine
end
